-- ==== Sys2Proof/Word.lean ====
section
/-! DEFINITION. The word types of the block and the plainest arithmetic on them (R13, R89). -/

namespace Sys2Proof

/-- One register's contents: "register width ... fixed 8" (R11). -/
abbrev Byte := BitVec 8

/-- A sub-address: "the 8-bit *sub-address* space, addresses 0x00 to 0xFF" (R70). -/
abbrev Addr := BitVec 8

/-- 256 booleans, one for each sub-address, bit `a` for address `a` (`read_only` R22, `modified` R23; packed as R13
and the signal `mod_o[255:0]` of R55 pack them). -/
abbrev BitTable := BitVec 256

/-- A boolean as it is returned on the 8-bit read-data path: 0x00 or 0x01 (R108). -/
def boolByte (b : Bool) : Byte := if b then 0x01#8 else 0x00#8

end Sys2Proof
end

