-- ==== Sys2Proof/Config.lean ====
section
/-! DEFINITION. The implementation parameters of the block (R11, R12) as one configuration record, the reference
configuration REF, and the free constants that stand for OPEN parameters. -/

namespace Sys2Proof

/-- How the engine treats a condition set that holds both a recognised and an unrecognised bit (R11, R105, D6). -/
inductive CondPolicy
  | priority
  | strict
  deriving DecidableEq, Repr

/-- Whether engine steps may fall inside a Dispatcher pass (R11, R217, D21). -/
inductive PassAtomicity
  | interleaved
  | atomic
  deriving DecidableEq, Repr

/-- `MAP`: the address of every named register (R11, R21). A block of several registers is named by its lowest
address. -/
structure RegMap where
  fwVer : Addr
  gpioDir : Addr
  gpioIn : Addr
  gpioOut : Addr
  lcdBacklight : Addr
  fpga : Addr
  input1 : Addr
  input2 : Addr
  /-- `A_INT1`, the first interrupt-pending register. -/
  interrupt1 : Addr
  /-- `A_INT2`, the second interrupt-pending register: reading it on the bus is the acknowledge (R164). -/
  interrupt2 : Addr
  adcTrigger : Addr
  /-- Lower address of the pair of channel 0, the USB voltage (R41). -/
  adcVusb : Addr
  /-- Lower address of the pair of channel 1, the battery voltage (R41). -/
  adcVbat : Addr
  /-- Lower address of the pair of channel 2, the die temperature (R41). -/
  adcTemp : Addr
  usb : Addr
  webusbMode : Addr
  blTrigger : Addr
  scratch : Addr
  uid : Addr
  chargingState : Addr
  crashDebug : Addr
  resetLock : Addr
  resetAttempted : Addr
  irAddress : Addr
  irCommand : Addr
  irTrigger : Addr
  ledMode : Addr
  ledLength : Addr
  ledData : Addr
  deriving DecidableEq, Repr

/-- The implementation parameters of R11: "a model takes every non-fixed row as a field of its configuration record". An
OPEN parameter is an Option, none where the configuration gives it no value; the value is then a free constant. -/
structure Config where
  /-- `SLAVE_ADDR`, the argument the local firmware gives to `INIT`; no rule of the block reads it (R11, R30). -/
  slaveAddr : BitVec 7
  /-- `TX_SENTINEL`, the byte recovery supplies to a pending read (R142). -/
  txSentinel : Byte
  /-- `RO`, the contents of the `read_only` table (R22). -/
  ro : BitTable
  map : RegMap
  /-- `INIT_REGS`, the register contents after power-on (R54), as the addresses that are not zero, rising. -/
  initRegs : List Host.Cell
  fwVersion : Byte
  /-- `UID`; its length is `UID_LEN`. -/
  uid : List Byte
  condPolicy : CondPolicy
  passAtomicity : PassAtomicity
  /-- `RX_DEPTH`; none is "unbounded" (D31). -/
  rxDepth : Option Nat
  /-- `BL_MAGIC`, stored in a watchdog scratch slot; none where the configuration leaves it OPEN (R11). -/
  blMagic : Option (BitVec 32)
  /-- `IR_SENTINEL`, the value that triggers an IR transmit; none where the configuration leaves it OPEN (R11). -/
  irSentinel : Option Byte
  /-- The first of the two watchdog scratch slots; none where it is left OPEN (V18, D39). -/
  watchdogSlotA : Option Nat
  /-- The second of the two watchdog scratch slots; none where it is left OPEN (V18, D39). -/
  watchdogSlotB : Option Nat
  /-- `NCTRL`, the number of controller instances, "not in source"; the model is of one instance and no rule reads it
  (R11, R30). -/
  controllers : Option Nat
  /-- `T_INPUT` in milliseconds; the model is untimed and no rule reads it (R261, R295). -/
  tInputMs : Nat
  /-- `T_ADC` in milliseconds; the model is untimed and no rule reads it (R261, R295). -/
  tAdcMs : Nat
  deriving DecidableEq, Repr

namespace Config

/-- `BL_SENTINEL`, fixed by the source (R11). -/
def blSentinel : Byte := 0xBE#8

/-- `LED_WORDS`, fixed by the source: "up to 10 pre-staged 32-bit pixel words" (R11). -/
def ledWords : Nat := 10

/-- `SCRATCH_LEN`, fixed by the source: "a 64-byte scratch block" (R11). -/
def scratchLen : Nat := 64

/-- `BL_MAGIC` where the configuration leaves it OPEN (R11, V18). A free constant: nothing in Lean can prove a value of
it. -/
opaque freeBlMagic : BitVec 32

/-- `IR_SENTINEL` where the configuration leaves it OPEN (R11, V18). A free constant. -/
opaque freeIrSentinel : Byte

/-- The first watchdog scratch slot where the configuration leaves it OPEN (V18, D39). A free constant. -/
opaque freeWatchdogSlotA : Nat

/-- The second watchdog scratch slot where the configuration leaves it OPEN (V18, D39). A free constant. -/
opaque freeWatchdogSlotB : Nat

/-- The magic constant the bootloader handler stores (R236): the configuration's, or the free one. -/
def magicWord (c : Config) : BitVec 32 := c.blMagic.getD freeBlMagic

/-- The value that triggers an IR transmit (R235): the configuration's, or the free one. -/
def irSentinelByte (c : Config) : Byte := c.irSentinel.getD freeIrSentinel

/-- `slotA` of R236: the configuration's, or the free one. -/
def slotA (c : Config) : Nat := c.watchdogSlotA.getD freeWatchdogSlotA

/-- `slotB` of R236: the configuration's, or the free one. -/
def slotB (c : Config) : Nat := c.watchdogSlotB.getD freeWatchdogSlotB

/-- The table that is true at exactly the addresses of a list. -/
def tableOf (as : List Nat) : BitTable := as.foldl (fun t a => t ||| BitVec.twoPow 256 a) 0#256

/-- The reference map: R21's table. -/
def refMap : RegMap where
  fwVer := 0x00#8
  gpioDir := 0x01#8
  gpioIn := 0x02#8
  gpioOut := 0x03#8
  lcdBacklight := 0x04#8
  fpga := 0x05#8
  input1 := 0x06#8
  input2 := 0x07#8
  interrupt1 := 0x08#8
  interrupt2 := 0x09#8
  adcTrigger := 0x0A#8
  adcVusb := 0x0B#8
  adcVbat := 0x0D#8
  adcTemp := 0x0F#8
  usb := 0x11#8
  webusbMode := 0x12#8
  blTrigger := 0x13#8
  scratch := 0x14#8
  uid := 0x54#8
  chargingState := 0x5C#8
  crashDebug := 0x5D#8
  resetLock := 0x5E#8
  resetAttempted := 0x5F#8
  irAddress := 0x60#8
  irCommand := 0x61#8
  irTrigger := 0x62#8
  ledMode := 0x63#8
  ledLength := 0x64#8
  ledData := 0x65#8

/-- The reference configuration REF (R11), which gives the OPEN parameters no value. -/
def ref : Config where
  slaveAddr := 0x17#7
  txSentinel := 0xFF#8
  ro := tableOf [0x00, 0x02, 0x06, 0x07, 0x08, 0x09, 0x54, 0x55, 0x56, 0x57, 0x58, 0x59, 0x5A, 0x5B]
  map := refMap
  initRegs := [(0x00, 0x01#8), (0x54, 0xE6#8), (0x55, 0x60#8), (0x56, 0x58#8), (0x57, 0x38#8), (0x58, 0x83#8),
    (0x59, 0x6B#8), (0x5A, 0x7A#8), (0x5B, 0x2F#8)]
  fwVersion := 0x01#8
  uid := [0xE6#8, 0x60#8, 0x58#8, 0x38#8, 0x83#8, 0x6B#8, 0x7A#8, 0x2F#8]
  condPolicy := .priority
  passAtomicity := .interleaved
  rxDepth := none
  blMagic := none
  irSentinel := none
  watchdogSlotA := none
  watchdogSlotB := none
  controllers := none
  tInputMs := 30
  tAdcMs := 250

/-- The named registers in the source's order, each with its lowest address and its number of bytes (R21). -/
def layout (c : Config) : List (Addr × Nat) :=
  [(c.map.fwVer, 1), (c.map.gpioDir, 1), (c.map.gpioIn, 1), (c.map.gpioOut, 1), (c.map.lcdBacklight, 1),
   (c.map.fpga, 1), (c.map.input1, 1), (c.map.input2, 1), (c.map.interrupt1, 1), (c.map.interrupt2, 1),
   (c.map.adcTrigger, 1), (c.map.adcVusb, 2), (c.map.adcVbat, 2), (c.map.adcTemp, 2), (c.map.usb, 1),
   (c.map.webusbMode, 1), (c.map.blTrigger, 1), (c.map.scratch, scratchLen), (c.map.uid, c.uid.length),
   (c.map.chargingState, 1), (c.map.crashDebug, 1), (c.map.resetLock, 1), (c.map.resetAttempted, 1),
   (c.map.irAddress, 1), (c.map.irCommand, 1), (c.map.irTrigger, 1), (c.map.ledMode, 1), (c.map.ledLength, 1),
   (c.map.ledData, 4 * ledWords)]

/-- Each block of a layout starts where the one before it ends, and the last one ends inside the 256 addresses. -/
def contiguous : List (Addr × Nat) → Bool
  | [] => true
  | [(a, n)] => a.toNat + n ≤ 256
  | (a, n) :: (b, m) :: rest => b.toNat == a.toNat + n && contiguous ((b, m) :: rest)

/-- The constraints of R12: (a) `A_INT2 = A_INT1 + 1`; (b) `RO` is true at the firmware version, every unique-ID
byte, the GPIO-input snapshot, both input-state bytes and both interrupt-pending bytes; (c) the named registers are
contiguous. `RX_DEPTH` is at least 1 where it is finite (R11). -/
def wf (c : Config) : Bool :=
  c.map.interrupt2 == c.map.interrupt1 + 1#8
  && [c.map.fwVer, c.map.gpioIn, c.map.input1, c.map.input2, c.map.interrupt1, c.map.interrupt2].all
      (fun a => c.ro.getLsbD a.toNat)
  && (List.range c.uid.length).all (fun k => c.ro.getLsbD (c.map.uid + BitVec.ofNat 8 k).toNat)
  && contiguous c.layout
  && (match c.rxDepth with
      | none => true
      | some d => 1 ≤ d)

end Config

end Sys2Proof
end

