-- ==== Sys2Proof/Syntax.lean ====
section
/-! DEFINITION. The operations of the block as one inductive: one constructor for each of the 31 rows of
spec/opcode_table.json (R100). An operand is what the operation's word carries beside the operation's own code. -/

namespace Sys2Proof

/-- The complete operation set (R100): 14 engine branches (format B), 4 slave events (format C), 13 local-port
operations (format L). -/
inductive Instr
  /-- `T_IDLE_START` (R131). -/
  | tIdleStart
  /-- `T_IDLE_ABORT` (R132). -/
  | tIdleAbort
  /-- `T_IDLE_RECOVER` (R133). -/
  | tIdleRecover
  /-- `T_START_WRITE` (R134). -/
  | tStartWrite
  /-- `T_START_READ` (R135). -/
  | tStartRead
  /-- `T_START_FAULT` (R136). -/
  | tStartFault
  /-- `T_WRITE_RX` (R137). -/
  | tWriteRx
  /-- `T_WRITE_STOP` (R138). -/
  | tWriteStop
  /-- `T_WRITE_RESTART` (R139). -/
  | tWriteRestart
  /-- `T_WRITE_RDREQ` (R140). -/
  | tWriteRdreq
  /-- `T_WRITE_RECOVER` (R141). -/
  | tWriteRecover
  /-- `T_READ_REQ` (R143). -/
  | tReadReq
  /-- `T_READ_STOP` (R144). -/
  | tReadStop
  /-- `T_READ_RECOVER` (R145). -/
  | tReadRecover
  /-- `RECEIVE.ADDR`, operand the received byte (R161). -/
  | receiveAddr (b : Byte)
  /-- `RECEIVE.DATA`, operand the received byte (R162). -/
  | receiveData (b : Byte)
  /-- `REQUEST` (R163, R164). -/
  | request
  /-- `FINISH` (R165). -/
  | finish
  /-- `INIT`, operand the whole address field: "`a[6:0]` = slave address", `a[7]` is ignored (R108, R109 (f), R181). -/
  | init (a : BitVec 8)
  /-- `DEINIT` (R182). -/
  | deinit
  /-- `TIP` (R183). -/
  | tip
  /-- `REGWR`, operands address and value (R184). -/
  | regwr (a : Addr) (v : Byte)
  /-- `LP_READ`, operand address (R185). -/
  | lpRead (a : Addr)
  /-- `LP_STORE`, operands address and value (R186). -/
  | lpStore (a : Addr) (v : Byte)
  /-- `LP_MODTEST`, operand address (R187). -/
  | lpModtest (a : Addr)
  /-- `LP_MODCLR`, operand address (R188). -/
  | lpModclr (a : Addr)
  /-- `ARB_SET_TARGET` (R189). -/
  | arbSetTarget
  /-- `ARB_RESOLVE` (R190). -/
  | arbResolve
  /-- `SET_CRASH_DEBUG`, operand value (R191). -/
  | setCrashDebug (v : Byte)
  /-- `SET_RESET_ATTEMPTED`, operand value (R192). -/
  | setResetAttempted (v : Byte)
  /-- `GET_RESET_ALLOWED` (R193). -/
  | getResetAllowed
  deriving DecidableEq, Repr

end Sys2Proof
end

