-- ==== Sys2Proof/WellFormed.lean ====
section
/-! DEFINITION. When an operation is written in its canonical form: an ignored field is written as zero (R108). The
widths of all other operands are in their types, and every value of them is legal (R110 (d)). -/

namespace Sys2Proof

/-- The canonical form: "operations that take no address or no value ignore the field (write it as zero)" (R108),
which leaves one ignored bit inside an operand, `a[7]` of `INIT` (R109 (f)). The machine runs the other form too and
ignores the bit. -/
def Instr.wellFormed : Instr → Bool
  | .init a => !a.getLsbD 7
  | .tIdleStart => true
  | .tIdleAbort => true
  | .tIdleRecover => true
  | .tStartWrite => true
  | .tStartRead => true
  | .tStartFault => true
  | .tWriteRx => true
  | .tWriteStop => true
  | .tWriteRestart => true
  | .tWriteRdreq => true
  | .tWriteRecover => true
  | .tReadReq => true
  | .tReadStop => true
  | .tReadRecover => true
  | .receiveAddr _ => true
  | .receiveData _ => true
  | .request => true
  | .finish => true
  | .deinit => true
  | .tip => true
  | .regwr _ _ => true
  | .lpRead _ => true
  | .lpStore _ _ => true
  | .lpModtest _ => true
  | .lpModclr _ => true
  | .arbSetTarget => true
  | .arbResolve => true
  | .setCrashDebug _ => true
  | .setResetAttempted _ => true
  | .getResetAllowed => true

end Sys2Proof
end

