-- ==== Sys2Proof/Decode.lean ====
section
/-! DEFINITION. The decoder of the three formats (R104, R105, R107, R108), total and rejecting by name, and after it
the encoder, written from the same tables. -/

namespace Sys2Proof

/-- Why a word is no operation. Each is a reserved encoding of R110; refusing is safe. -/
inductive DecodeReject
  /-- Format L `op` 13 to 15: "refused" (R108, R110 (c), V3). -/
  | unusedLocalOp (op : BitVec 4)
  /-- Format C `ev = 3`: "unused", refused (R107, R110 (b), V4). -/
  | unusedSlaveEvent
  /-- No row of R105's table matches. This never happens: Sys2Proof.Laws.Decode proves it. -/
  | noBranchRow (w : BitVec 7)
  deriving DecidableEq, Repr

/-- A word as it arrives on one of the block's three ports. Each format has a port of its own (R55, R100), so a word
never has to say which format it is. -/
inductive PortWord
  /-- The selector of an engine branch, `w = fsm[1:0] ++ COND[4:0]` (R104). -/
  | selector (w : BitVec 7)
  /-- A slave event, `ev[1:0] ++ wip ++ b[7:0]` (R107). -/
  | event (w : BitVec 11)
  /-- A local-port operation, `op[3:0] ++ a[7:0] ++ v[7:0]` (R108). -/
  | localOp (w : BitVec 20)
  deriving DecidableEq, Repr

/-! ## Format B -/

/-- One row of R105's table. -/
structure BranchRow where
  mask : BitVec 7
  pattern : BitVec 7
  branch : Instr
  deriving DecidableEq, Repr

/-- R105's table, in its order, which is "the source's listing order of that state's transitions". -/
def branchRows : List BranchRow :=
  [⟨0x61#7, 0x01#7, .tIdleStart⟩, ⟨0x71#7, 0x10#7, .tIdleAbort⟩, ⟨0x60#7, 0x00#7, .tIdleRecover⟩,
   ⟨0x62#7, 0x22#7, .tStartWrite⟩, ⟨0x66#7, 0x24#7, .tStartRead⟩, ⟨0x60#7, 0x20#7, .tStartFault⟩,
   ⟨0x62#7, 0x42#7, .tWriteRx⟩, ⟨0x6A#7, 0x48#7, .tWriteStop⟩, ⟨0x6B#7, 0x41#7, .tWriteRestart⟩,
   ⟨0x6F#7, 0x44#7, .tWriteRdreq⟩, ⟨0x60#7, 0x40#7, .tWriteRecover⟩,
   ⟨0x64#7, 0x64#7, .tReadReq⟩, ⟨0x6C#7, 0x68#7, .tReadStop⟩, ⟨0x60#7, 0x60#7, .tReadRecover⟩]

/-- "take the first row of the table whose `(w & mask) = match`" (R105, step 2). -/
def firstRow (w : BitVec 7) : List BranchRow → Option Instr
  | [] => none
  | r :: rest => if w &&& r.mask = r.pattern then some r.branch else firstRow w rest

/-- `UNRECOG[fsm]` (R105, step 1), the state as its 2-bit code. -/
def unrecog (fsm : BitVec 2) : BitVec 5 :=
  if fsm = 0#2 then 0b01110#5 else if fsm = 1#2 then 0b11001#5 else if fsm = 2#2 then 0b10000#5 else 0b10011#5

/-- "the recovery row of the current state" (R105, step 1). -/
def recoveryRow (fsm : BitVec 2) : Instr :=
  if fsm = 0#2 then .tIdleRecover else if fsm = 1#2 then .tStartFault
  else if fsm = 2#2 then .tWriteRecover else .tReadRecover

/-- Decoding format B (R105): step 1 under the strict policy, then step 2. The precondition "the engine has a step
only when `enabled` and `COND != 0`" is the engine's, in `Machine.engineTurn`: this function is asked for a word with
`COND = 0` by nothing the machine does, and answers the table's row for it. -/
def decodeBranch (policy : CondPolicy) (w : BitVec 7) : Except DecodeReject Instr :=
  if policy = .strict ∧ w.extractLsb' 0 5 &&& unrecog (w.extractLsb' 5 2) ≠ 0#5 then
    .ok (recoveryRow (w.extractLsb' 5 2))
  else
    match firstRow w branchRows with
    | some i => .ok i
    | none => .error (.noBranchRow w)

/-! ## Format C -/

/-- Decoding format C (R107): `000bbbbbbbb`, `001bbbbbbbb`, `01xxxxxxxxx`, `10xxxxxxxxx`; `ev = 3` is unused. -/
def decodeEvent (w : BitVec 11) : Except DecodeReject Instr :=
  if w &&& 0x700#11 = 0x000#11 then .ok (.receiveAddr (w.extractLsb' 0 8))
  else if w &&& 0x700#11 = 0x100#11 then .ok (.receiveData (w.extractLsb' 0 8))
  else if w &&& 0x600#11 = 0x200#11 then .ok .request
  else if w &&& 0x600#11 = 0x400#11 then .ok .finish
  else .error .unusedSlaveEvent

/-! ## Format L -/

/-- The `op` field of a local-port word, `word[19:16]` (R108). -/
def localOpField (w : BitVec 20) : BitVec 4 := w.extractLsb' 16 4

/-- The `a` field of a local-port word, `word[15:8]` (R108). -/
def localAddrField (w : BitVec 20) : BitVec 8 := w.extractLsb' 8 8

/-- The `v` field of a local-port word, `word[7:0]` (R108). -/
def localValueField (w : BitVec 20) : BitVec 8 := w.extractLsb' 0 8

/-- Decoding format L (R108): thirteen operations numbered 0 to 12, 13 to 15 refused. -/
def decodeLocal (w : BitVec 20) : Except DecodeReject Instr :=
  match (localOpField w).toNat with
  | 0 => .ok (.init (localAddrField w))
  | 1 => .ok .deinit
  | 2 => .ok .tip
  | 3 => .ok (.regwr (localAddrField w) (localValueField w))
  | 4 => .ok (.lpRead (localAddrField w))
  | 5 => .ok (.lpStore (localAddrField w) (localValueField w))
  | 6 => .ok (.lpModtest (localAddrField w))
  | 7 => .ok (.lpModclr (localAddrField w))
  | 8 => .ok .arbSetTarget
  | 9 => .ok .arbResolve
  | 10 => .ok (.setCrashDebug (localValueField w))
  | 11 => .ok (.setResetAttempted (localValueField w))
  | 12 => .ok .getResetAllowed
  | _ => .error (.unusedLocalOp (localOpField w))

/-! ## All formats -/

/-- The decoder, total on every word of every port. The policy matters for format B alone. -/
def decode (policy : CondPolicy) : PortWord → Except DecodeReject Instr
  | .selector w => decodeBranch policy w
  | .event w => decodeEvent w
  | .localOp w => decodeLocal w

/-- The port word that an opcode-table word of `nbits` bits stands for. The table's widths are 7, 11 and 20 bits
(opcode_table.json), in whole bytes 8, 16 and 24; a bit above the format's width belongs to no word. -/
def portWordOfTable (nbits w : Nat) : Option PortWord :=
  if nbits ≤ 8 then (if w < 2 ^ 7 then some (.selector (BitVec.ofNat 7 w)) else none)
  else if nbits ≤ 16 then (if w < 2 ^ 11 then some (.event (BitVec.ofNat 11 w)) else none)
  else if nbits ≤ 24 then (if w < 2 ^ 20 then some (.localOp (BitVec.ofNat 20 w)) else none)
  else none

/-- The operation the decoder reads from an opcode-table word, under the default `COND_POLICY` (R11: `priority`). -/
def decodeTableWord (nbits w : Nat) : Option Instr :=
  match portWordOfTable nbits w with
  | none => none
  | some p =>
    match decode .priority p with
    | .ok i => some i
    | .error _ => none

/-! ## The encoder -/

/-- A local-port word from its fields, `op[3:0] ++ a[7:0] ++ v[7:0]` (R108). -/
def localWord (op : BitVec 4) (a v : BitVec 8) : BitVec 20 := op ++ a ++ v

/-- A slave-event word from its fields, `ev[1:0] ++ wip ++ b[7:0]` (R107). -/
def eventWord (ev : BitVec 2) (wip : Bool) (b : Byte) : BitVec 11 := ev ++ BitVec.ofBool wip ++ b

/-- The word of an operation, every bit its format leaves open written as zero (R105, R107, R108). -/
def encode : Instr → PortWord
  | .tIdleStart => .selector 0x01#7
  | .tIdleAbort => .selector 0x10#7
  | .tIdleRecover => .selector 0x00#7
  | .tStartWrite => .selector 0x22#7
  | .tStartRead => .selector 0x24#7
  | .tStartFault => .selector 0x20#7
  | .tWriteRx => .selector 0x42#7
  | .tWriteStop => .selector 0x48#7
  | .tWriteRestart => .selector 0x41#7
  | .tWriteRdreq => .selector 0x44#7
  | .tWriteRecover => .selector 0x40#7
  | .tReadReq => .selector 0x64#7
  | .tReadStop => .selector 0x68#7
  | .tReadRecover => .selector 0x60#7
  | .receiveAddr b => .event (eventWord 0#2 false b)
  | .receiveData b => .event (eventWord 0#2 true b)
  | .request => .event (eventWord 1#2 false 0#8)
  | .finish => .event (eventWord 2#2 false 0#8)
  | .init a => .localOp (localWord 0#4 a 0#8)
  | .deinit => .localOp (localWord 1#4 0#8 0#8)
  | .tip => .localOp (localWord 2#4 0#8 0#8)
  | .regwr a v => .localOp (localWord 3#4 a v)
  | .lpRead a => .localOp (localWord 4#4 a 0#8)
  | .lpStore a v => .localOp (localWord 5#4 a v)
  | .lpModtest a => .localOp (localWord 6#4 a 0#8)
  | .lpModclr a => .localOp (localWord 7#4 a 0#8)
  | .arbSetTarget => .localOp (localWord 8#4 0#8 0#8)
  | .arbResolve => .localOp (localWord 9#4 0#8 0#8)
  | .setCrashDebug v => .localOp (localWord 10#4 0#8 v)
  | .setResetAttempted v => .localOp (localWord 11#4 0#8 v)
  | .getResetAllowed => .localOp (localWord 12#4 0#8 0#8)

end Sys2Proof
end

