-- ==== Sys2Proof/Machine/State.lean ====
section
/-! DEFINITION. The state of the block and of the environment its rules name, as plain data, and its value after
power-on (R54). -/

namespace Sys2Proof.Machine

/-- The transaction state (R26). -/
inductive Fsm
  | idle
  | start
  | write
  | read
  deriving DecidableEq, Repr

/-- A latched condition of the front-end (R31). `RX` is not among them: it is a level, 1 exactly when a received byte
is waiting (R103). -/
inductive Latched
  | sd
  | rr
  | sp
  | ab
  deriving DecidableEq, Repr

/-- `FE.pend`, "a subset of {`SD`, `RR`, `SP`, `AB`}" (R31). -/
structure Pending where
  sd : Bool
  rr : Bool
  sp : Bool
  ab : Bool
  deriving DecidableEq, Repr

/-- The label of a recovery, one for each recovery branch (R251): "a label for the model's trace only" (R14). -/
inductive RecoverCause
  | idleUnexpected
  | startFault
  | writeAbort
  | readUnexpected
  deriving DecidableEq, Repr

/-- An output event toward hardware outside the block (`emit`, R14), as the rules R190 and R231 to R238 name them.
DESIGN CHOICE (log 35): none for the USB-mount and suspend state setters and the WebUSB-mode setter, since what invokes
them is not in source (R239, N8.5); the model never calls them. -/
inductive Output
  /-- `Line(low)` where the argument is true, `Line(idle)` where it is false (R190). -/
  | line (low : Bool)
  | gpioDir (pin : Nat) (level : Bool)
  | gpioOut (pin : Nat) (level : Bool)
  | fpgaReset (asserted : Bool)
  | fpgaLoopback (enabled : Bool)
  | setLcdBacklight (duty : Byte)
  | adcTrigger (v : Byte)
  | irTransmit (address16 : BitVec 16) (command16 : BitVec 16)
  | watchdogDisable
  | watchdogScratch (slot : Nat) (word : BitVec 32)
  | watchdogReboot
  | ledMode (v : Byte)
  | ledPushWord (word : BitVec 32)
  deriving DecidableEq, Repr

/-- What an input poll samples: the two input snapshots and the GPIO pins (`draw`s of R214). -/
structure InputSample where
  new1 : Byte
  new2 : Byte
  gin : Byte
  deriving DecidableEq, Repr

/-- What an ADC poll samples: the charging bit and one channel's 16 bits (`draw`s of R215). -/
structure AdcSample where
  charging : Bool
  sample : BitVec 16
  deriving DecidableEq, Repr

/-- The draws of one Dispatcher pass: "whether each poll is due, and the sampled values" (R114, R210, R213 to R215). A
poll that is not due is none. -/
structure Draws where
  usb : Byte
  webusbMode : Byte
  inputs : Option InputSample
  adc : Option AdcSample
  deriving DecidableEq, Repr

/-- The next micro-step of a Dispatcher pass whose gate was open, with the local variables of R211 to R215's pseudocode
that are live there. -/
inductive PassPoint
  /-- Step 1: `ARB_RESOLVE` (R211). -/
  | line
  /-- Step 2 at address `a`: `LP_MODTEST(a)` (R212). -/
  | modTest (a : Addr)
  /-- Step 2 at address `a`: `v <- LP_READ(a)` (R212). -/
  | regRead (a : Addr)
  /-- Step 2 at address `a`: `handler[a](v)` (R212, R230). -/
  | handler (a : Addr) (v : Byte)
  /-- Step 2 at address `a`: `LP_MODCLR(a)` (R212). -/
  | modClear (a : Addr)
  /-- Step 3: `LP_STORE(MAP.USB, draw byte)` (R213). -/
  | mirrorUsb
  /-- Step 3: `LP_STORE(MAP.WEBUSB_MODE, draw byte)` (R213). -/
  | mirrorWebusb
  /-- Step 4: `old1 <- LP_READ(MAP.INPUT1)` (R214). -/
  | readOld1 (i : InputSample)
  /-- Step 4: `old2 <- LP_READ(MAP.INPUT2)` (R214). -/
  | readOld2 (i : InputSample) (d1 : Byte)
  /-- Step 4: `i1 <- LP_READ(A_INT1)` (R214). -/
  | readInt1 (i : InputSample) (d1 d2 : Byte)
  /-- Step 4: `LP_STORE(A_INT1, i1 | d1)` (R214). -/
  | storeInt1 (i : InputSample) (d1 d2 i1 : Byte)
  /-- Step 4: `i2 <- LP_READ(A_INT2)` (R214). -/
  | readInt2 (i : InputSample) (d1 d2 : Byte)
  /-- Step 4: `LP_STORE(A_INT2, i2 | d2)` (R214). -/
  | storeInt2 (i : InputSample) (d1 d2 i2 : Byte)
  /-- Step 4: `LP_STORE(MAP.INPUT1, new1)` (R214). -/
  | storeInput1 (i : InputSample) (d1 d2 : Byte)
  /-- Step 4: `LP_STORE(MAP.INPUT2, new2)` (R214). -/
  | storeInput2 (i : InputSample) (d1 d2 : Byte)
  /-- Step 4: `LP_STORE(MAP.GPIO_IN, gin)` (R214). -/
  | storeGpioIn (i : InputSample) (d1 d2 : Byte)
  /-- Step 4: `ARB_SET_TARGET()`, reached where `(d1 | d2) != 0` (R214). -/
  | setTarget
  /-- Step 5: `LP_STORE(MAP.CHARGING_STATE, zext_8(draw bit))` (R215). -/
  | storeCharging (x : AdcSample)
  /-- Step 5: `LP_STORE(p, s[7:0])` (R215). -/
  | storeAdcLow (x : AdcSample)
  /-- Step 5: `LP_STORE(p + 1, s[15:8])`, and the round-robin index advances (R215). -/
  | storeAdcHigh (x : AdcSample)
  deriving DecidableEq, Repr

/-- A Dispatcher pass in progress: its draws and its next micro-step. -/
structure Pass where
  draws : Draws
  point : PassPoint
  deriving DecidableEq, Repr

/-- Who moves next, and with what free input (R8, R9): the environment's choice, one entry for one move. -/
inductive Turn
  /-- `FE`: `EnvRaise(c)` (R31). -/
  | raise (c : Latched)
  /-- `FE`: `EnvPush(b)` (R31). -/
  | push (b : Byte)
  /-- `ENG`: one engine step, if the engine has one (R130). -/
  | engine
  /-- `INJ`: one local-port operation, as its 20-bit word (R108, R180). -/
  | localOp (w : BitVec 20)
  /-- `DISP`: a Dispatcher pass begins, with its gate test (R210). -/
  | pass (d : Draws)
  /-- `DISP`: the pass in progress takes one micro-step (R217). -/
  | poll
  deriving DecidableEq, Repr

/-- Why the machine stops where the spec gives no step. -/
inductive Fault
  /-- Raised by `step` in every state with `halted` true: "While it is true no agent of the block takes a step" (R56,
  V5: stuck). Safe: the run has ended. -/
  | halted
  /-- Raised by `T_WRITE_RX` with an empty receive queue: `RxPop` is "defined only when `rxq` is not empty, which every
  rule that uses it guarantees" (R31). No step of the machine raises it, since the branch is selected only when `RX` is
  set. Safe. -/
  | rxQueueEmpty
  deriving DecidableEq, Repr

/-- Why the machine gives an operation no meaning. -/
inductive Refusal
  /-- Raised by `exec` for an instruction that has no meaning yet; no arm raises it. Safe. -/
  | notModelled (mnemonic : String)
  /-- Raised by `INIT` while `enabled` is already true: "has no meaning in the source; a model refuses it" (R181, V1).
  Safe. -/
  | initWhileEnabled
  /-- Raised by `DEINIT` while `fsm != IDLE`: "has no meaning in the source ...; a model refuses it" (R182, V2). Safe. -/
  | deinitInTransaction
  /-- Raised by `DEINIT` while not enabled: "refused" (R182, V2). Safe. -/
  | deinitWhileDisabled
  /-- Raised by `step` for a local-port word the decoder rejects, `op` 13 to 15 (R110 (c), V3). A slave event with `ev = 3`
  is "never produced by the driver" (R110 (b), V4): the decoder rejects it, and no step has one. Safe. -/
  | undecodable (r : DecodeReject)
  /-- Raised by `step` for `EnvPush` on a full receive queue of finite depth: "refuse" (D31, V7). Safe. -/
  | rxQueueFull
  deriving DecidableEq, Repr

/-- The state. Every field carries the rule that names it; `config`, `eventData`, `emitted`, `recoveries` and `schedule` are
the model's own. -/
structure State where
  /-- The implementation parameters (R11); no step changes them. -/
  config : Config
  /-- `registers`, 256 bytes (R20), as the addresses that differ from `INIT_REGS`, rising. -/
  registers : List Host.Cell
  /-- `read_only`, 256 booleans, "immutable table" (R22). -/
  readOnly : BitTable
  /-- `modified`, 256 booleans, the dirty bits (R23). -/
  modified : BitTable
  /-- `cursor`, 8 bits (R24). -/
  cursor : Addr
  /-- `write_in_progress` (R25). -/
  writeInProgress : Bool
  /-- `fsm` (R26). -/
  fsm : Fsm
  /-- `target`, the "desired asserted state" of the interrupt line (R27). -/
  target : Bool
  /-- `current`, "what is physically driven" (R27). -/
  current : Bool
  /-- `clear_pending` (R27). -/
  clearPending : Bool
  /-- `enabled` (R30). -/
  enabled : Bool
  /-- `slave_addr`, 7 bits (R30). -/
  slaveAddr : BitVec 7
  /-- `FE.pend` (R31). -/
  pend : Pending
  /-- `FE.rxq`, oldest byte first (R31). -/
  rxq : List Byte
  /-- `FE.txlog`, oldest byte first (R31). -/
  txlog : List Byte
  /-- `next_channel`, the ADC round-robin index (R28). -/
  nextChannel : Fin 3
  /-- `halted` (R56). -/
  halted : Bool
  /-- The Dispatcher's pass in progress, none between passes (R210, R217). -/
  passInProgress : Option Pass
  /-- The local port's 8-bit read-data return (R55, R108): what the last local-port operation returned, none where it
  returned nothing. -/
  readData : Option Byte
  /-- The byte a slave event returned (R163: REQUEST "return b"), none where it returned nothing. It is where `exec` of a
  format-C operation leaves its result; an engine branch hands the byte to `TxPush` itself and leaves this field. -/
  eventData : Option Byte
  /-- The output events so far, oldest first (`emit`, R14). -/
  emitted : List Output
  /-- The labels of the recoveries so far, oldest first (R14, R251). -/
  recoveries : List RecoverCause
  /-- The moves still to come, next one first: the schedule and the free inputs (R9). -/
  schedule : List Turn
  deriving DecidableEq, Repr

/-- The state after power-on, for any configuration (R54, R280): registers at `INIT_REGS`, all dirty bits clear, the
cursor 0x00, `IDLE`, the line idle, not enabled, the front-end empty. -/
def State.resetOf (c : Config) : State where
  config := c
  registers := []
  readOnly := c.ro
  modified := 0#256
  cursor := 0x00#8
  writeInProgress := false
  fsm := .idle
  target := false
  current := false
  clearPending := false
  enabled := false
  slaveAddr := 0#7
  pend := ⟨false, false, false, false⟩
  rxq := []
  txlog := []
  nextChannel := 0
  halted := false
  passInProgress := none
  readData := none
  eventData := none
  emitted := []
  recoveries := []
  schedule := []

/-- The state after power-on under the reference configuration REF (R11, R54). -/
def State.reset : State := State.resetOf Config.ref

end Sys2Proof.Machine
end

