-- ==== Sys2Proof/Machine/Flags.lean ====
section
/-! DEFINITION. The block's flags, `modified` and `write_in_progress` (R7), and the immutable table that guards them. -/

namespace Sys2Proof.Machine

/-- `ro[a]` (R14, R22). -/
def State.ro (s : State) (a : Addr) : Bool := s.readOnly.getLsbD a.toNat

/-- `mod[a]` (R14, R23). -/
def State.dirty (s : State) (a : Addr) : Bool := s.modified.getLsbD a.toNat

/-- `mod[a] <- true` (R14). -/
def State.setDirty (s : State) (a : Addr) : State := { s with modified := s.modified ||| BitVec.twoPow 256 a.toNat }

/-- `mod[a] <- false` (R14). -/
def State.clearDirty (s : State) (a : Addr) : State :=
  { s with modified := s.modified &&& ~~~(BitVec.twoPow 256 a.toNat) }

/-- `wip <- b` (R14). -/
def State.setWip (s : State) (b : Bool) : State := { s with writeInProgress := b }

end Sys2Proof.Machine
end

