-- ==== Sys2Proof/Machine/Operands.lean ====
section
/-! DEFINITION. How operands and selector words are formed (R31, R41, R89, R103, R104, R107, R109, R215, R235, R238). -/

namespace Sys2Proof.Machine

/-- The code of a transaction state: "IDLE = 0, START = 1, WRITE = 2, READ = 3" (R26). -/
def Fsm.code : Fsm → BitVec 2
  | .idle => 0#2
  | .start => 1#2
  | .write => 2#2
  | .read => 3#2

/-- The transaction state of a code (R26). -/
def Fsm.ofCode (c : BitVec 2) : Fsm :=
  if c = 0#2 then .idle else if c = 1#2 then .start else if c = 2#2 then .write else .read

/-- Membership in `FE.pend` (R31). -/
def Pending.has (p : Pending) : Latched → Bool
  | .sd => p.sd
  | .rr => p.rr
  | .sp => p.sp
  | .ab => p.ab

/-- `pend ∪ {c}` (R31). -/
def Pending.add (p : Pending) : Latched → Pending
  | .sd => { p with sd := true }
  | .rr => { p with rr := true }
  | .sp => { p with sp := true }
  | .ab => { p with ab := true }

/-- `pend \ {c}` (R31). -/
def Pending.drop (p : Pending) : Latched → Pending
  | .sd => { p with sd := false }
  | .rr => { p with rr := false }
  | .sp => { p with sp := false }
  | .ab => { p with ab := false }

/-- The level `RX`: "1 exactly when a received byte is waiting" (R103). -/
def State.rx (s : State) : Bool := !s.rxq.isEmpty

/-- `COND`, bit 4 down to bit 0: `AB`, `SP`, `RR`, `RX`, `SD` (R31, R103). -/
def State.cond (s : State) : BitVec 5 :=
  BitVec.ofBool s.pend.ab ++ BitVec.ofBool s.pend.sp ++ BitVec.ofBool s.pend.rr ++ BitVec.ofBool s.rx
    ++ BitVec.ofBool s.pend.sd

/-- The format-B selector `w = fsm[1:0] ++ COND[4:0]` (R104). -/
def State.selector (s : State) : BitVec 7 := s.fsm.code ++ s.cond

/-- The selector the engine is given for a format-B word. A word with `COND = 0` writes the don't-care bits of a
fall-through row (mask 0x60) as zeros and is itself no selector (R105, R110 (a)): a condition that selects the row
stands in for it, `SP` in IDLE and START, `AB` in WRITE and READ. -/
def placedSelector (w : Nat) : Nat := if w % 32 = 0 then w + (if w / 32 < 2 then 8 else 16) else w

/-- The post-increment of the one addressing mode: "cursor indirect with post-increment", modulo 256 (R89 (a), R109 (c),
R160). -/
def nextCursor (c : Addr) : Addr := c + 1#8

/-- The slave address of `INIT`: "takes the slave address from `a[6:0]`; `a[7]` is ignored" (R109 (f)). -/
def slaveAddrOf (a : BitVec 8) : BitVec 7 := a.extractLsb' 0 7

/-- `s[7:0]` of a 16-bit sample (R109 (d)). -/
def lowByte (v : BitVec 16) : Byte := v.extractLsb' 0 8

/-- `s[15:8]` of a 16-bit sample (R109 (d)). -/
def highByte (v : BitVec 16) : Byte := v.extractLsb' 8 8

/-- `(~b) ++ b` as a 16-bit value with `b` the low byte (R89 (e), R109 (e)). -/
def complementPair (b : Byte) : BitVec 16 := (~~~b) ++ b

/-- The lower address of an ADC channel's pair, `MAP.ADC_PAIR[channel]` (R41, R215). -/
def adcPair (c : Config) (channel : Fin 3) : Addr :=
  if channel = 0 then c.map.adcVusb else if channel = 1 then c.map.adcVbat else c.map.adcTemp

/-- "Round-robin advance: `(next_channel + 1) mod 3`" (R89 (d)). -/
def nextAdcChannel (c : Fin 3) : Fin 3 := c + 1

end Sys2Proof.Machine
end

