-- ==== Sys2Proof/Machine/Ops.lean ====
section
/-! DEFINITION. The named operations over the register file and the front-end (R14), the bus write (R76), the
acknowledge (R164), and the recovery procedure, which is this block's one exception (R142, R251). -/

namespace Sys2Proof.Machine

/-! ## A byte store as a list of cells in rising order -/

/-- The byte a list of cells holds at an address, if it lists one. -/
def cellsFind : List Host.Cell → Nat → Option Byte
  | [], _ => none
  | (k, x) :: rest, a => if k = a then some x else cellsFind rest a

/-- List a byte at an address, in its place in the rising order. -/
def cellsPut : List Host.Cell → Nat → Byte → List Host.Cell
  | [], a, v => [(a, v)]
  | (k, x) :: rest, a, v =>
    if a < k then (a, v) :: (k, x) :: rest
    else if a = k then (a, v) :: rest
    else (k, x) :: cellsPut rest a v

/-- List nothing at an address. -/
def cellsDrop : List Host.Cell → Nat → List Host.Cell
  | [], _ => []
  | (k, x) :: rest, a => if k = a then cellsDrop rest a else (k, x) :: cellsDrop rest a

/-- What an unlisted address reads as: its reset contents `INIT_REGS[a]` (R11, R54), which are zero where `INIT_REGS`
lists nothing. -/
def unlistedByte (init : List Host.Cell) (a : Nat) : Byte := (cellsFind init a).getD 0x00#8

/-- The byte at an address. -/
def memRead (init m : List Host.Cell) (a : Nat) : Byte := (cellsFind m a).getD (unlistedByte init a)

/-- Store a byte at an address; a byte equal to what an unlisted address reads as is not listed. -/
def memWrite (init m : List Host.Cell) (a : Nat) (v : Byte) : List Host.Cell :=
  if v = unlistedByte init a then cellsDrop m a else cellsPut m a v

/-- The canonical form of the register file: addresses strictly rising, all below 256, and no entry equal to what an
unlisted address reads as. -/
abbrev Memory.wf (init m : List Host.Cell) : Prop :=
  m.Pairwise (fun x y => x.1 < y.1) ∧ (∀ c ∈ m, c.1 < 256) ∧ ∀ c ∈ m, c.2 ≠ unlistedByte init c.1

namespace State

/-! ## The register file -/

/-- `x[a]` (R14, R20): "read the byte `registers[a]`; no side effect". -/
def reg (s : State) (a : Addr) : Byte := memRead s.config.initRegs s.registers a.toNat

/-- `x[a] <- v` (R14): "raw store ...: no `read_only` check, `modified` untouched". -/
def setReg (s : State) (a : Addr) (v : Byte) : State :=
  { s with registers := memWrite s.config.initRegs s.registers a.toNat v }

/-- `MemRead(a, 2)`: "`x[a+1] ++ x[a]` (little-endian, address wraps modulo 256)" (R14, R72). -/
def regPair (s : State) (a : Addr) : BitVec 16 := s.reg (a + 1#8) ++ s.reg a

/-- `BusWrite(a, v)`: "`if not ro[a] then x[a] <- v; mod[a] <- true`", both in the one arm (R14, R76). -/
def busWrite (s : State) (a : Addr) (v : Byte) : State :=
  if s.ro a then s else (s.setReg a v).setDirty a

/-! ## The front-end (R31) -/

/-- `Clear(c)`: `pend <- pend \ {c}`. -/
def clear (s : State) (c : Latched) : State := { s with pend := s.pend.drop c }

/-- `EnvRaise(c)`: `pend <- pend ∪ {c}`. -/
def envRaise (s : State) (c : Latched) : State := { s with pend := s.pend.add c }

/-- `EnvPush(b)`: "appends the byte `b` to `rxq`". -/
def envPush (s : State) (b : Byte) : State := { s with rxq := s.rxq ++ [b] }

/-- Whether the receive queue has room for one more byte (`RX_DEPTH`, R11, D31). -/
def rxHasRoom (s : State) : Bool :=
  match s.config.rxDepth with
  | none => true
  | some d => s.rxq.length < d

/-- `RxPop()` as it acts on the state: the oldest byte leaves the queue. -/
def rxDrop (s : State) : State := { s with rxq := s.rxq.tail }

/-- `TxPush(b)`: "appends `b` to `txlog` and does `pend <- pend \ {RR}`". -/
def txPush (s : State) (b : Byte) : State := { s with txlog := s.txlog ++ [b], pend := s.pend.drop .rr }

/-- `fsm <- S`. -/
def setFsm (s : State) (f : Fsm) : State := { s with fsm := f }

/-- `emit E(args)`: "record an output event ...; no state of the block changes" (R14). -/
def emit (s : State) (es : List Output) : State := { s with emitted := s.emitted ++ es }

/-- What a local-port operation returns on the read-data path (R108). -/
def setReadData (s : State) (r : Option Byte) : State := { s with readData := r }

/-- What a slave event returns where `exec` performs it alone (R163). -/
def setEventData (s : State) (r : Option Byte) : State := { s with eventData := r }

/-! ## The protocol fault -/

/-- `Recover(cause)` (R142), the one operation by which the block takes its one kind of exception (R251, R258): one
queued byte is popped and discarded, a pending read is answered with `TX_SENTINEL`, every latched condition is cleared
and `fsm` is forced to `IDLE`. No slave event is raised. The cause goes to the model's trace alone (R14). There is no
return operation (R259). -/
def recover (s : State) (cause : RecoverCause) : State :=
  let s1 := if s.rx then s.rxDrop else s
  let s2 := if s1.pend.rr then s1.txPush s1.config.txSentinel else s1
  let s3 := ((s2.clear .sd).clear .sp).clear .ab
  { s3.setFsm .idle with recoveries := s3.recoveries ++ [cause] }

/-! ## The acknowledge -/

/-- `Acknowledge()` (R164): both interrupt-pending registers are zeroed by raw stores, `target` is cleared and
`clear_pending` is set; the dirty bits and `current` are not touched. -/
def acknowledge (s : State) : State :=
  { (s.setReg s.config.map.interrupt1 0x00#8).setReg s.config.map.interrupt2 0x00#8 with
    target := false, clearPending := true }

/-- The run that follows the watchdog reboot: "for the block, a power-on reset"; nothing of the block survives (R56,
R282). The environment of the new run starts with an empty schedule. -/
def reboot (s : State) : State := State.resetOf s.config

end State

end Sys2Proof.Machine
end

