-- ==== Sys2Proof/Machine/SlaveEvents.lean ====
section
/-! DEFINITION. The Slave Event Handler (41_slave_events.md): the four format-C operations. Each is a function of the
state, which the engine branch that raises the event calls inside its own step (R160: "invoked only from the Bus
Interrupt Driver"), and a meaning for the dispatch on the opcode table, which leaves what the event returns in
`eventData`. No step performs an event without its branch. -/

namespace Sys2Proof.Machine

namespace State

/-- `RECEIVE.ADDR`: `cur <- b; wip <- true` (R161). -/
def receiveAddr (s : State) (b : Byte) : State := { s with cursor := b, writeInProgress := true }

/-- `RECEIVE.DATA`: `BusWrite(cur, b); cur <- (cur + 1) mod 256` (R162). -/
def receiveData (s : State) (b : Byte) : State :=
  { s.busWrite s.cursor b with cursor := nextCursor s.cursor }

/-- `RECEIVE(b)`: the address phase where `wip` is false, the data phase where it is true (R107, R137). -/
def receive (s : State) (b : Byte) : State := if s.writeInProgress then s.receiveData b else s.receiveAddr b

/-- The byte `REQUEST` returns: `x[cur]`, "the value at the start of this byte's handling" (R163). -/
def requestByte (s : State) : Byte := s.reg s.cursor

/-- What `REQUEST` does to the state: `wip` is cleared, the acknowledge happens where `cur = A_INT2`, and the cursor
advances (R163, R164). -/
def request (s : State) : State :=
  let s1 := s.setWip false
  let s2 := if s.cursor = s.config.map.interrupt2 then s1.acknowledge else s1
  { s2 with cursor := nextCursor s.cursor }

/-- `FINISH`: `wip <- false` (R165). -/
def finish (s : State) : State := s.setWip false

end State

/-- `RECEIVE.ADDR` (R161). -/
def execReceiveAddr (b : Byte) (s : State) : Host.Outcome State Fault Refusal :=
  .next ((s.receiveAddr b).setEventData none)

/-- `RECEIVE.DATA` (R162). -/
def execReceiveData (b : Byte) (s : State) : Host.Outcome State Fault Refusal :=
  .next ((s.receiveData b).setEventData none)

/-- `REQUEST` (R163, R164). -/
def execRequest (s : State) : Host.Outcome State Fault Refusal :=
  .next (s.request.setEventData (some s.requestByte))

/-- `FINISH` (R165). -/
def execFinish (s : State) : Host.Outcome State Fault Refusal :=
  .next (s.finish.setEventData none)

end Sys2Proof.Machine
end

