-- ==== Sys2Proof/Machine/BusFsm.lean ====
section
/-! DEFINITION. The Bus Interrupt Driver (40_bus_fsm.md): the pseudocode of the 14 format-B branches. Which branch is
taken is decided by the decoder (R105) and by `Machine.engineTurn`. -/

namespace Sys2Proof.Machine

/-- `T_IDLE_START`: `Clear(SD); fsm <- START` (R131). -/
def execTIdleStart (s : State) : Host.Outcome State Fault Refusal := .next ((s.clear .sd).setFsm .start)

/-- `T_IDLE_ABORT`: `Clear(AB)` (R132). -/
def execTIdleAbort (s : State) : Host.Outcome State Fault Refusal := .next (s.clear .ab)

/-- `T_IDLE_RECOVER`: `raise Recover(idle_unexpected)` (R133). -/
def execTIdleRecover (s : State) : Host.Outcome State Fault Refusal := .next (s.recover .idleUnexpected)

/-- `T_START_WRITE`: `fsm <- WRITE`; the byte stays in `rxq` (R134). -/
def execTStartWrite (s : State) : Host.Outcome State Fault Refusal := .next (s.setFsm .write)

/-- `T_START_READ`: `fsm <- READ`; `RR` stays pending (R135). -/
def execTStartRead (s : State) : Host.Outcome State Fault Refusal := .next (s.setFsm .read)

/-- `T_START_FAULT`: `raise Recover(start_fault)` (R136). -/
def execTStartFault (s : State) : Host.Outcome State Fault Refusal := .next (s.recover .startFault)

/-- `T_WRITE_RX`: `b <- RxPop(); RECEIVE(b)` (R137). -/
def execTWriteRx (s : State) : Host.Outcome State Fault Refusal :=
  match s.rxq with
  | [] => .fault .rxQueueEmpty
  | b :: _ => .next (s.rxDrop.receive b)

/-- `T_WRITE_STOP`: `Clear(SP); FINISH(); fsm <- IDLE` (R138). -/
def execTWriteStop (s : State) : Host.Outcome State Fault Refusal := .next ((s.clear .sp).finish.setFsm .idle)

/-- `T_WRITE_RESTART`: `Clear(SD); fsm <- READ` (R139). -/
def execTWriteRestart (s : State) : Host.Outcome State Fault Refusal := .next ((s.clear .sd).setFsm .read)

/-- `T_WRITE_RDREQ`: `fsm <- READ`; `RR` stays pending (R140). -/
def execTWriteRdreq (s : State) : Host.Outcome State Fault Refusal := .next (s.setFsm .read)

/-- `T_WRITE_RECOVER`: `raise Recover(write_abort)` (R141). -/
def execTWriteRecover (s : State) : Host.Outcome State Fault Refusal := .next (s.recover .writeAbort)

/-- `T_READ_REQ`: `b <- REQUEST(); TxPush(b)` (R143). -/
def execTReadReq (s : State) : Host.Outcome State Fault Refusal := .next (s.request.txPush s.requestByte)

/-- `T_READ_STOP`: `Clear(SP); FINISH(); fsm <- IDLE` (R144). -/
def execTReadStop (s : State) : Host.Outcome State Fault Refusal := .next ((s.clear .sp).finish.setFsm .idle)

/-- `T_READ_RECOVER`: `raise Recover(read_unexpected)` (R145). -/
def execTReadRecover (s : State) : Host.Outcome State Fault Refusal := .next (s.recover .readUnexpected)

end Sys2Proof.Machine
end

