-- ==== Sys2Proof/Machine/LocalPort.lean ====
section
/-! DEFINITION. The local-port operations (42_local_port.md): the 13 format-L operations. The ones the Dispatcher
issues too are functions of the state first, which its micro-steps call (R210: everything it does to the block goes
through these primitives). -/

namespace Sys2Proof.Machine

namespace State

/-- `TIP`: `return (fsm != IDLE)` (R183). -/
def tip (s : State) : State := s.setReadData (some (boolByte (s.fsm != .idle)))

/-- `LP_READ`: `return x[a]`, with no side effect at any address (R185). -/
def lpRead (s : State) (a : Addr) : State := s.setReadData (some (s.reg a))

/-- `LP_STORE`: `x[a] <- v`; `read_only` is not consulted and `mod[a]` is not touched (R186). -/
def lpStore (s : State) (a : Addr) (v : Byte) : State := (s.setReg a v).setReadData none

/-- `LP_MODTEST`: `return mod[a]` (R187). -/
def lpModtest (s : State) (a : Addr) : State := s.setReadData (some (boolByte (s.dirty a)))

/-- `LP_MODCLR`: `mod[a] <- false` (R188). -/
def lpModclr (s : State) (a : Addr) : State := (s.clearDirty a).setReadData none

/-- `ARB_SET_TARGET`: `tgt <- true` (R189). -/
def arbSetTarget (s : State) : State := ({ s with target := true } : State).setReadData none

/-- `ARB_RESOLVE` (R190): `clear_pending` outranks `target`, and in that arm too `current` is set to what is driven. -/
def arbResolve (s : State) : State :=
  if s.clearPending then
    (({ s with current := false, clearPending := false } : State).emit [.line false]).setReadData none
  else if s.target != s.current then
    (({ s with current := s.target } : State).emit [.line s.target]).setReadData none
  else s.setReadData none

end State

/-- `INIT` (R181): the address is stored, the front-end's pending state is emptied, `fsm <- IDLE`, and the engine is
enabled. Refused while the engine is enabled already (V1). -/
def execInit (a : BitVec 8) (s : State) : Host.Outcome State Fault Refusal :=
  if s.enabled then .refused .initWhileEnabled
  else .next { s with
    slaveAddr := slaveAddrOf a, pend := ⟨false, false, false, false⟩, rxq := [], fsm := .idle, enabled := true,
    readData := none }

/-- `DEINIT` (R182): `enabled <- false`, permitted only when enabled and `fsm = IDLE`; refused otherwise (V2). -/
def execDeinit (s : State) : Host.Outcome State Fault Refusal :=
  if !s.enabled then .refused .deinitWhileDisabled
  else if s.fsm != .idle then .refused .deinitInTransaction
  else .next { s with enabled := false, readData := none }

/-- `TIP` (R183). -/
def execTip (s : State) : Host.Outcome State Fault Refusal := .next s.tip

/-- `REGWR`: `BusWrite(a, v)` (R184). -/
def execRegwr (a : Addr) (v : Byte) (s : State) : Host.Outcome State Fault Refusal :=
  .next ((s.busWrite a v).setReadData none)

/-- `LP_READ` (R185). -/
def execLpRead (a : Addr) (s : State) : Host.Outcome State Fault Refusal := .next (s.lpRead a)

/-- `LP_STORE` (R186). -/
def execLpStore (a : Addr) (v : Byte) (s : State) : Host.Outcome State Fault Refusal := .next (s.lpStore a v)

/-- `LP_MODTEST` (R187). -/
def execLpModtest (a : Addr) (s : State) : Host.Outcome State Fault Refusal := .next (s.lpModtest a)

/-- `LP_MODCLR` (R188). -/
def execLpModclr (a : Addr) (s : State) : Host.Outcome State Fault Refusal := .next (s.lpModclr a)

/-- `ARB_SET_TARGET` (R189). -/
def execArbSetTarget (s : State) : Host.Outcome State Fault Refusal := .next s.arbSetTarget

/-- `ARB_RESOLVE` (R190). -/
def execArbResolve (s : State) : Host.Outcome State Fault Refusal := .next s.arbResolve

/-- `SET_CRASH_DEBUG`: `x[MAP.CRASH_DEBUG] <- v`; dirty bit untouched (R191). -/
def execSetCrashDebug (v : Byte) (s : State) : Host.Outcome State Fault Refusal :=
  .next ((s.setReg s.config.map.crashDebug v).setReadData none)

/-- `SET_RESET_ATTEMPTED`: `x[MAP.RESET_ATTEMPTED] <- v`; dirty bit untouched (R192). -/
def execSetResetAttempted (v : Byte) (s : State) : Host.Outcome State Fault Refusal :=
  .next ((s.setReg s.config.map.resetAttempted v).setReadData none)

/-- `GET_RESET_ALLOWED`: `return (x[MAP.RESET_LOCK] = 0x00)` (R193). -/
def execGetResetAllowed (s : State) : Host.Outcome State Fault Refusal :=
  .next (s.setReadData (some (boolByte (s.reg s.config.map.resetLock == 0x00#8))))

end Sys2Proof.Machine
end

