-- ==== Sys2Proof/Machine/Dispatch.lean ====
section
/-! DEFINITION. The meaning of every operation, one arm for each constructor of Instr. -/

namespace Sys2Proof.Machine

def exec (i : Instr) (s : State) : Host.Outcome State Fault Refusal :=
  match i with
  | .tIdleStart => Sys2Proof.Machine.execTIdleStart s
  | .tIdleAbort => Sys2Proof.Machine.execTIdleAbort s
  | .tIdleRecover => Sys2Proof.Machine.execTIdleRecover s
  | .tStartWrite => Sys2Proof.Machine.execTStartWrite s
  | .tStartRead => Sys2Proof.Machine.execTStartRead s
  | .tStartFault => Sys2Proof.Machine.execTStartFault s
  | .tWriteRx => Sys2Proof.Machine.execTWriteRx s
  | .tWriteStop => Sys2Proof.Machine.execTWriteStop s
  | .tWriteRestart => Sys2Proof.Machine.execTWriteRestart s
  | .tWriteRdreq => Sys2Proof.Machine.execTWriteRdreq s
  | .tWriteRecover => Sys2Proof.Machine.execTWriteRecover s
  | .tReadReq => Sys2Proof.Machine.execTReadReq s
  | .tReadStop => Sys2Proof.Machine.execTReadStop s
  | .tReadRecover => Sys2Proof.Machine.execTReadRecover s
  | .receiveAddr b => Sys2Proof.Machine.execReceiveAddr b s
  | .receiveData b => Sys2Proof.Machine.execReceiveData b s
  | .request => Sys2Proof.Machine.execRequest s
  | .finish => Sys2Proof.Machine.execFinish s
  | .init a => Sys2Proof.Machine.execInit a s
  | .deinit => Sys2Proof.Machine.execDeinit s
  | .tip => Sys2Proof.Machine.execTip s
  | .regwr a v => Sys2Proof.Machine.execRegwr a v s
  | .lpRead a => Sys2Proof.Machine.execLpRead a s
  | .lpStore a v => Sys2Proof.Machine.execLpStore a v s
  | .lpModtest a => Sys2Proof.Machine.execLpModtest a s
  | .lpModclr a => Sys2Proof.Machine.execLpModclr a s
  | .arbSetTarget => Sys2Proof.Machine.execArbSetTarget s
  | .arbResolve => Sys2Proof.Machine.execArbResolve s
  | .setCrashDebug v => Sys2Proof.Machine.execSetCrashDebug v s
  | .setResetAttempted v => Sys2Proof.Machine.execSetResetAttempted v s
  | .getResetAllowed => Sys2Proof.Machine.execGetResetAllowed s

end Sys2Proof.Machine
end

