-- ==== Sys2Proof/Machine/Handlers.lean ====
section
/-! DEFINITION. The side-effect handlers (44_side_effect_handlers.md): `handler[a](v)`, run by the Dispatcher alone
(R230). Each acts on hardware outside the block by `emit`s; one of them ends the run (R236). -/

namespace Sys2Proof.Machine

/-- The four controlled pins (R231). -/
def gpioPins : List Nat := [0, 1, 2, 3]

/-- `GPIO_DIR`: `for i in 0..3: emit GpioDir(i, v[i])` (R231). -/
def gpioDirOutputs (v : Byte) : List Output := gpioPins.map (fun i => .gpioDir i (v.getLsbD i))

/-- `GPIO_OUT`: `for i in 0..3: emit GpioOut(i, v[i])` (R231). -/
def gpioOutOutputs (v : Byte) : List Output := gpioPins.map (fun i => .gpioOut i (v.getLsbD i))

/-- `FPGA`: `emit FpgaReset(asserted = (v[0] = 1)); emit FpgaLoopback(enabled = (v[1] = 1))` (R232). -/
def fpgaOutputs (v : Byte) : List Output := [.fpgaReset (v.getLsbD 0), .fpgaLoopback (v.getLsbD 1)]

/-- The 16-bit address and command of an IR transmit, each `(~b) ++ b` (R235). -/
def irOutputs (ad cm : Byte) : List Output := [.irTransmit (complementPair ad) (complementPair cm)]

/-- The bootloader handler's outputs (R236). -/
def bootloaderOutputs (c : Config) : List Output :=
  [.watchdogDisable, .watchdogScratch c.slotA c.magicWord, .watchdogScratch c.slotB (~~~c.magicWord), .watchdogReboot]

/-- Pixel word `k`: `x[D+4k+3] ++ x[D+4k+2] ++ x[D+4k+1] ++ x[D+4k]` with `D = MAP.LED_DATA0` (R51, R238). -/
def State.ledWord (s : State) (k : Nat) : BitVec 32 :=
  let d := s.config.map.ledData + BitVec.ofNat 8 (4 * k)
  s.reg (d + 3#8) ++ s.reg (d + 2#8) ++ s.reg (d + 1#8) ++ s.reg d

/-- `n <- min(v, 10); for k in 0..n-1: emit LedPushWord(...)` (R238). -/
def State.ledOutputs (s : State) (v : Byte) : List Output :=
  (List.range (min v.toNat Config.ledWords)).map (fun k => .ledPushWord (s.ledWord k))

/-- `BL_TRIGGER` (R236): with the sentinel value the watchdog reboot, which never returns; no action for any other
value. -/
def State.bootloaderHandler (s : State) (v : Byte) : State :=
  if v = Config.blSentinel then { s.emit (bootloaderOutputs s.config) with halted := true } else s

/-- `IR_TRIGGER` (R235): with the sentinel value an IR transmit; no action for any other value. -/
def State.irHandler (s : State) (v : Byte) : State :=
  if v = s.config.irSentinelByte then
    s.emit (irOutputs (s.reg s.config.map.irAddress) (s.reg s.config.map.irCommand))
  else s

/-- `handler[a](v)`, R230's table; the empty action for every other address. -/
def State.handler (s : State) (a : Addr) (v : Byte) : State :=
  if a = s.config.map.gpioDir then s.emit (gpioDirOutputs v)
  else if a = s.config.map.gpioOut then s.emit (gpioOutOutputs v)
  else if a = s.config.map.fpga then s.emit (fpgaOutputs v)
  else if a = s.config.map.lcdBacklight then s.emit [.setLcdBacklight v]
  else if a = s.config.map.adcTrigger then s.emit [.adcTrigger v]
  else if a = s.config.map.irTrigger then s.irHandler v
  else if a = s.config.map.blTrigger then s.bootloaderHandler v
  else if a = s.config.map.ledMode then s.emit [.ledMode v]
  else if a = s.config.map.ledLength then s.emit (s.ledOutputs v)
  else s

/-- The addresses R230's table gives a handler. -/
def handledAddrs (c : Config) : List Addr :=
  [c.map.gpioDir, c.map.gpioOut, c.map.fpga, c.map.lcdBacklight, c.map.adcTrigger, c.map.irTrigger, c.map.blTrigger,
   c.map.ledMode, c.map.ledLength]

end Sys2Proof.Machine
end

