-- ==== Sys2Proof/Machine/Dispatcher.lean ====
section
/-! DEFINITION. The Dispatcher pass (43_dispatcher.md) as a sequence of micro-steps, each one format-L operation or one
handler (R217, D34, D40), and the pass taken as a whole. -/

namespace Sys2Proof.Machine

/-- What follows step 4 (R210): step 5 if the ADC poll is due, else the pass ends. -/
def afterInputs (d : Draws) : Option PassPoint := d.adc.map .storeCharging

/-- What follows step 3 (R210): step 4 if the input poll is due, else what follows step 4. -/
def afterMirror (d : Draws) : Option PassPoint :=
  match d.inputs with
  | some i => some (.readOld1 i)
  | none => afterInputs d

/-- What follows address `a` in step 2: the next address, ascending from 0x00 to 0xFF, then step 3 (R212). -/
def afterAddr (a : Addr) : PassPoint := if a = 0xFF#8 then .mirrorUsb else .modTest (a + 1#8)

namespace State

/-- The pass goes on at a point, or ends. -/
def goTo (s : State) (d : Draws) (next : Option PassPoint) : State :=
  { s with passInProgress := next.map (fun p => ⟨d, p⟩) }

/-- A pass begins with the gate: "tested once (R82)"; a pass whose gate test returns true is skipped whole (R210). -/
def passBegin (s : State) (d : Draws) : State :=
  if s.fsm != .idle then s.tip else s.tip.goTo d (some .line)

/-- The micro-step at a point of a pass (R211 to R215). After a handler that never returns (R236) the pass stays where
it is. -/
def passStepAt (s : State) (d : Draws) : PassPoint → State
  | .line => s.arbResolve.goTo d (some (.modTest 0x00#8))
  | .modTest a => (s.lpModtest a).goTo d (some (if s.dirty a then .regRead a else afterAddr a))
  | .regRead a => (s.lpRead a).goTo d (some (.handler a (s.reg a)))
  | .handler a v => if (s.handler a v).halted then s.handler a v else (s.handler a v).goTo d (some (.modClear a))
  | .modClear a => (s.lpModclr a).goTo d (some (afterAddr a))
  | .mirrorUsb => (s.lpStore s.config.map.usb d.usb).goTo d (some .mirrorWebusb)
  | .mirrorWebusb => (s.lpStore s.config.map.webusbMode d.webusbMode).goTo d (afterMirror d)
  | .readOld1 i => (s.lpRead s.config.map.input1).goTo d (some (.readOld2 i (i.new1 ^^^ s.reg s.config.map.input1)))
  | .readOld2 i d1 =>
    (s.lpRead s.config.map.input2).goTo d (some (.readInt1 i d1 (i.new2 ^^^ s.reg s.config.map.input2)))
  | .readInt1 i d1 d2 =>
    (s.lpRead s.config.map.interrupt1).goTo d (some (.storeInt1 i d1 d2 (s.reg s.config.map.interrupt1)))
  | .storeInt1 i d1 d2 i1 => (s.lpStore s.config.map.interrupt1 (i1 ||| d1)).goTo d (some (.readInt2 i d1 d2))
  | .readInt2 i d1 d2 =>
    (s.lpRead s.config.map.interrupt2).goTo d (some (.storeInt2 i d1 d2 (s.reg s.config.map.interrupt2)))
  | .storeInt2 i d1 d2 i2 => (s.lpStore s.config.map.interrupt2 (i2 ||| d2)).goTo d (some (.storeInput1 i d1 d2))
  | .storeInput1 i d1 d2 => (s.lpStore s.config.map.input1 i.new1).goTo d (some (.storeInput2 i d1 d2))
  | .storeInput2 i d1 d2 => (s.lpStore s.config.map.input2 i.new2).goTo d (some (.storeGpioIn i d1 d2))
  | .storeGpioIn i d1 d2 =>
    (s.lpStore s.config.map.gpioIn i.gin).goTo d (if d1 ||| d2 ≠ 0#8 then some .setTarget else afterInputs d)
  | .setTarget => s.arbSetTarget.goTo d (afterInputs d)
  | .storeCharging x =>
    (s.lpStore s.config.map.chargingState (boolByte x.charging)).goTo d (some (.storeAdcLow x))
  | .storeAdcLow x =>
    (s.lpStore (adcPair s.config s.nextChannel) (lowByte x.sample)).goTo d (some (.storeAdcHigh x))
  | .storeAdcHigh x =>
    ({ s.lpStore (adcPair s.config s.nextChannel + 1#8) (highByte x.sample) with
        nextChannel := nextAdcChannel s.nextChannel } : State).goTo d none

/-- One micro-step of the pass in progress; nothing happens where there is none. -/
def passStep (s : State) : State :=
  match s.passInProgress with
  | none => s
  | some p => s.passStepAt p.draws p.point

/-- At most `n` micro-steps, until the pass ends or the run does. -/
def passRun : Nat → State → State
  | 0, s => s
  | n + 1, s => if s.halted || s.passInProgress.isNone then s else passRun n s.passStep

end State

/-- As many micro-steps as the longest pass has: one for the line, four for each of 256 addresses, two for the mirror, ten
for the input poll, three for the ADC poll. -/
def passBound : Nat := 1040

/-- A turn of the Dispatcher to begin a pass: the gate test alone where passes are interleaved, "the whole pass, gate
test included" where they are atomic (R217). -/
def State.passTurn (s : State) (d : Draws) : State :=
  match s.config.passAtomicity with
  | .interleaved => s.passBegin d
  | .atomic => State.passRun passBound (s.passBegin d)

end Sys2Proof.Machine
end

