-- ==== Sys2Proof/Machine/Agents.lean ====
section
/-! DEFINITION. The four agents that take steps (R8): the front-end `FE`, the engine `ENG`, the Dispatcher `DISP` and
other polling-context code `INJ`, one function for a turn of each. -/

namespace Sys2Proof.Machine

/-- Decode a port's word and perform the operation; a word that is no operation is refused (R110). -/
def runDecoded (d : Except DecodeReject Instr) (s : State) : Host.Outcome State Fault Refusal :=
  match d with
  | .ok i => exec i s
  | .error r => .refused (.undecodable r)

/-- `ENG`: "given `enabled` and `COND != 0`, decode `(fsm, COND)` ... into exactly one branch and perform that branch's
pseudocode atomically" (R130, R105). "When `COND = 0` or `enabled` is false the engine has no step": nothing changes. -/
def engineTurn (s : State) : Host.Outcome State Fault Refusal :=
  if s.enabled ∧ s.cond ≠ 0#5 then runDecoded (decodeBranch s.config.condPolicy s.selector) s else .next s

/-- `INJ`: a local-port operation (R180). DESIGN CHOICE (log 34): any of the 13, though R8 (4) names only
`register_write` and the accessors for `INJ` and R190 has `ARB_RESOLVE` inside a pass only. -/
def localTurn (w : BitVec 20) (s : State) : Host.Outcome State Fault Refusal := runDecoded (decodeLocal w) s

/-- `FE`: `EnvPush(b)`; on a full queue of finite depth it is refused (R31, D31, V7). -/
def pushTurn (b : Byte) (s : State) : Host.Outcome State Fault Refusal :=
  if s.rxHasRoom then .next (s.envPush b) else .refused .rxQueueFull

/-- The next move of the schedule. A local-port operation or a new pass whose turn comes while a pass is in progress
waits, and the pass goes on: "one polling context" (R8, R217). Where the schedule has run out the engine has every turn
(weak fairness of R295). DESIGN CHOICE (log 34): a local-port turn outside a pass may issue any of the 13 operations,
`ARB_RESOLVE` too, in the middle of a transaction and before `INIT`; the firmware's discipline (R8, R190, R281) is a
premise of claims. -/
def moveNext (s : State) : Host.Outcome State Fault Refusal :=
  match s.schedule with
  | [] => engineTurn s
  | .raise c :: rest => .next (({ s with schedule := rest } : State).envRaise c)
  | .push b :: rest => pushTurn b { s with schedule := rest }
  | .engine :: rest => engineTurn { s with schedule := rest }
  | .localOp w :: rest => if s.passInProgress.isSome then .next s.passStep else localTurn w { s with schedule := rest }
  | .pass d :: rest =>
    if s.passInProgress.isSome then .next s.passStep else .next (({ s with schedule := rest } : State).passTurn d)
  | .poll :: rest => .next (({ s with schedule := rest } : State).passStep)

end Sys2Proof.Machine
end

