-- ==== Sys2Proof/Machine/Step.lean ====
section
/-! DEFINITION. One step of the machine, and how the host places one operation where the next step takes it. -/

namespace Sys2Proof.Machine

/-- One atomic step of one agent (R15, R81). "While [`halted`] is true no agent of the block takes a step" (R56). -/
def step (s : State) : Host.Outcome State Fault Refusal :=
  if s.halted then .fault .halted else moveNext s

/-- The state with one opcode-table word as the next move, which is the engine's or the local port's. A format-B word is
the selector the engine sees, so `fsm` and the conditions are set to it, the engine is enabled, and a byte waits where
`RX` is set (one byte 0x00 where none waited); a word with `COND = 0` is placed with a condition that selects its row. A
format-C word is raised by an engine branch "and by nothing else" (R100): the engine is placed before the branch that
raises it, `T_WRITE_RX` with the byte at the head of the queue, `T_READ_REQ` or `T_WRITE_STOP`, with the word's `wip`. A
format-L word is a local-port operation, with no pass in progress. -/
def State.withFetchWord (s : State) (nbits w : Nat) : State :=
  if nbits ≤ 8 then
    { s with
      halted := false, enabled := true
      fsm := Fsm.ofCode (BitVec.ofNat 2 (placedSelector w / 32))
      pend := ⟨(placedSelector w).testBit 0, (placedSelector w).testBit 2, (placedSelector w).testBit 3,
        (placedSelector w).testBit 4⟩
      rxq := if (placedSelector w).testBit 1 then (if s.rxq.isEmpty then [0x00#8] else s.rxq) else []
      schedule := .engine :: s.schedule }
  else if nbits ≤ 16 then
    { s with
      halted := false, enabled := true, writeInProgress := w.testBit 8
      fsm := if w / 512 = 1 then .read else .write
      pend := ⟨false, w / 512 = 1, w / 512 = 2, false⟩
      rxq := if w / 512 = 0 then BitVec.ofNat 8 w :: s.rxq.tail else []
      schedule := .engine :: s.schedule }
  else
    { s with halted := false, passInProgress := none, schedule := .localOp (BitVec.ofNat 20 w) :: s.schedule }

end Sys2Proof.Machine
end

