-- ==== Sys2Proof/Machine/Wire.lean ====
section
/-! DEFINITION. Transactions on the wire as sequences of environment moves (R101, R106, R111, R113): what a conforming
master does. The machine runs under any environment (D30); these are named premises of claims. -/

namespace Sys2Proof.Machine

/-- One transaction, in the shapes of R106. -/
inductive Transaction
  /-- "Write of `n >= 0` data bytes": the address byte and the data bytes. -/
  | write (a : Addr) (data : List Byte)
  /-- "Write with no byte at all (a probe)". -/
  | probe
  /-- "Read of `m >= 1` bytes (current-address read)". -/
  | read (m : Nat)
  /-- "Combined write then read"; `reported` is whether the front-end reports the repeated start. -/
  | writeRead (a : Addr) (data : List Byte) (reported : Bool) (m : Nat)
  deriving DecidableEq, Repr

/-- A read supplies at least one byte (R106). -/
def Transaction.legal : Transaction → Bool
  | .write _ _ => true
  | .probe => true
  | .read m => 1 ≤ m
  | .writeRead _ _ _ m => 1 ≤ m

/-- The moves a conforming master makes for a transaction, in their order (R106). The slave-address byte is not pushed
(R71, R106 (d)). -/
def Transaction.moves : Transaction → List Turn
  | .write a data => [.raise .sd] ++ (a :: data).map .push ++ [.raise .sp]
  | .probe => [.raise .sd, .raise .sp]
  | .read m => [.raise .sd] ++ List.replicate m (.raise .rr) ++ [.raise .sp]
  | .writeRead a data reported m =>
    [.raise .sd] ++ (a :: data).map .push ++ (if reported then [.raise .sd] else []) ++ List.replicate m (.raise .rr)
      ++ [.raise .sp]

/-- Whether a turn is a move of the environment (R31). -/
def Turn.isMove : Turn → Bool
  | .raise _ => true
  | .push _ => true
  | .engine => false
  | .localOp _ => false
  | .pass _ => false
  | .poll => false

/-- Whether a turn is allowed by R106 (a) to (c): no move while a read-request is pending, the first start only in `IDLE`
with `COND = 0`, never an abort. DESIGN CHOICE (log 33): R106 names engine steps alone between the moves; the conditions
are the environment's, so turns of the polling context are allowed anywhere too; and (a) is read as no move while a
read-request is pending, so that after a `DEINIT` and `INIT` have wiped one with no `TxPush` the master may move again. -/
def conformingTurn (first : Bool) (s : State) : Turn → Bool
  | .raise c => c != .ab && !s.pend.rr && (!first || (s.fsm == .idle && s.cond == 0#5))
  | .push _ => !s.pend.rr && !first
  | .engine => true
  | .localOp _ => true
  | .pass _ => true
  | .poll => true

/-- Whether a turn is one of a *prompt* environment, which "makes a move only when `COND = 0`" (R106). -/
def promptTurn (s : State) (t : Turn) : Bool := !t.isMove || s.cond == 0#5

/-- Whether the first `n` steps of a state are taken, none stopping, with every turn conforming where it comes. `first` is
whether the start of the transaction is still to come. -/
def conformingRun : Nat → Bool → State → Bool
  | 0, _, _ => true
  | n + 1, first, s =>
    s.schedule.head?.all (conformingTurn first s) &&
      (match step s with
       | .next t => conformingRun n (first && !s.schedule.head?.any Turn.isMove) t
       | .fault _ => false
       | .refused _ => false)

/-- Whether the first `n` steps of a state are taken, none stopping, with a prompt environment (R106). -/
def promptRun : Nat → State → Bool
  | 0, _ => true
  | n + 1, s =>
    s.schedule.head?.all (promptTurn s) &&
      (match step s with
       | .next t => promptRun n t
       | .fault _ => false
       | .refused _ => false)

/-- The prompt schedule of R113, "`eng*` after every environment move": from `COND = 0` one move of a transaction leaves
the engine at most two steps, and a further engine turn changes nothing (log 33). -/
def promptly (moves : List Turn) : List Turn := moves.flatMap (fun t => [t, .engine, .engine])

end Sys2Proof.Machine
end

