-- ==== Sys2Proof/Safety.lean ====
section
/-! DEFINITION. What claims about the machine are stated in: its invariants, which runs are runs of the hardware, the
state graph, and what a run at rest is. -/

namespace Sys2Proof.Machine

/-- The invariant of the machine (R53, R54, R183, D31). Each field holds at reset and is kept by every step. -/
structure State.Inv (s : State) : Prop where
  /-- The register file keeps its canonical form. -/
  memory : Memory.wf s.config.initRegs s.registers
  /-- R53 (a): "`read_only` equals `RO`". -/
  table : s.readOnly = s.config.ro
  /-- R53 (b): "For every `a` with `RO[a]`, `mod[a]` is false". -/
  clean : ∀ a : Addr, s.config.ro.getLsbD a.toNat = true → s.dirty a = false
  /-- R183: "False whenever the engine is not enabled (then `fsm = IDLE`)". -/
  disabledIdle : s.enabled = false → s.fsm = .idle
  /-- D31: a receive queue of finite depth never holds more than that. -/
  depth : ∀ d, s.config.rxDepth = some d → s.rxq.length ≤ d

/-- R53 (f), first half: "`wip` is true only while `fsm = WRITE` or (`fsm = READ` ...)". -/
def State.addressPhaseSound (s : State) : Prop := s.writeInProgress = true → s.fsm = .write ∨ s.fsm = .read

/-- The edges of R147's graph that lead to another state than `IDLE`. -/
def fsmEdge : Fsm → Fsm → Bool
  | .idle, .start => true
  | .start, .write => true
  | .start, .read => true
  | .write, .read => true
  | _, _ => false

/-- The state each branch leads to: "the next state is a constant of the branch" (R147). The other operations are no
branches. -/
def branchTarget : Instr → Option Fsm
  | .tIdleStart => some .start
  | .tIdleAbort => some .idle
  | .tIdleRecover => some .idle
  | .tStartWrite => some .write
  | .tStartRead => some .read
  | .tStartFault => some .idle
  | .tWriteRx => some .write
  | .tWriteStop => some .idle
  | .tWriteRestart => some .read
  | .tWriteRdreq => some .read
  | .tWriteRecover => some .idle
  | .tReadReq => some .read
  | .tReadStop => some .idle
  | .tReadRecover => some .idle
  | .receiveAddr _ => none
  | .receiveData _ => none
  | .request => none
  | .finish => none
  | .init _ => none
  | .deinit => none
  | .tip => none
  | .regwr _ _ => none
  | .lpRead _ => none
  | .lpStore _ _ => none
  | .lpModtest _ => none
  | .lpModclr _ => none
  | .arbSetTarget => none
  | .arbResolve => none
  | .setCrashDebug _ => none
  | .setResetAttempted _ => none
  | .getResetAllowed => none

/-- The operation whose step performs an operation: itself, or for a slave event the engine branch that raises it (R160).
FINISH is raised by `T_READ_STOP` too. -/
def performedBy : Instr → Instr
  | .receiveAddr _ => .tWriteRx
  | .receiveData _ => .tWriteRx
  | .request => .tReadReq
  | .finish => .tWriteStop
  | .tIdleStart => .tIdleStart
  | .tIdleAbort => .tIdleAbort
  | .tIdleRecover => .tIdleRecover
  | .tStartWrite => .tStartWrite
  | .tStartRead => .tStartRead
  | .tStartFault => .tStartFault
  | .tWriteRx => .tWriteRx
  | .tWriteStop => .tWriteStop
  | .tWriteRestart => .tWriteRestart
  | .tWriteRdreq => .tWriteRdreq
  | .tWriteRecover => .tWriteRecover
  | .tReadReq => .tReadReq
  | .tReadStop => .tReadStop
  | .tReadRecover => .tReadRecover
  | .init a => .init a
  | .deinit => .deinit
  | .tip => .tip
  | .regwr a v => .regwr a v
  | .lpRead a => .lpRead a
  | .lpStore a v => .lpStore a v
  | .lpModtest a => .lpModtest a
  | .lpModclr a => .lpModclr a
  | .arbSetTarget => .arbSetTarget
  | .arbResolve => .arbResolve
  | .setCrashDebug v => .setCrashDebug v
  | .setResetAttempted v => .setResetAttempted v
  | .getResetAllowed => .getResetAllowed

/-- The block is *quiescent*: "`COND = 0`, `fsm = IDLE`, no pass is in progress and no dirty bit is set" (D35). -/
def State.quiescent (s : State) : Prop :=
  s.cond = 0#5 ∧ s.fsm = .idle ∧ s.passInProgress = none ∧ s.modified = 0#256

/-- The identification registers hold their parameters: the firmware version and the unique ID (R32, R46, R281). -/
def State.identified (s : State) : Prop :=
  s.reg s.config.map.fwVer = s.config.fwVersion ∧
    ∀ k, (h : k < s.config.uid.length) → s.reg (s.config.map.uid + BitVec.ofNat 8 k) = s.config.uid[k]

/-- The engine has the next move and it is one: not halted, the schedule run out. -/
def State.engineAlone (s : State) : Prop := s.halted = false ∧ s.enabled = true ∧ s.schedule = []

/-- Two states that agree in everything an engine step may depend on (R90): everything but the arbitration bits, the
dirty bits, the ADC index, the Dispatcher's place in its pass, the results returned and the model's traces. -/
def State.sameForEngine (s t : State) : Prop :=
  t = { s with
    target := t.target, current := t.current, clearPending := t.clearPending, modified := t.modified,
    nextChannel := t.nextChannel, passInProgress := t.passInProgress, readData := t.readData,
    eventData := t.eventData, emitted := t.emitted, recoveries := t.recoveries }

/-- The format-L operation that a micro-step of a pass issues; a handler issues none (R210 to R215). -/
def passOp (s : State) (d : Draws) : PassPoint → Option Instr
  | .line => some .arbResolve
  | .modTest a => some (.lpModtest a)
  | .regRead a => some (.lpRead a)
  | .handler _ _ => none
  | .modClear a => some (.lpModclr a)
  | .mirrorUsb => some (.lpStore s.config.map.usb d.usb)
  | .mirrorWebusb => some (.lpStore s.config.map.webusbMode d.webusbMode)
  | .readOld1 _ => some (.lpRead s.config.map.input1)
  | .readOld2 _ _ => some (.lpRead s.config.map.input2)
  | .readInt1 _ _ _ => some (.lpRead s.config.map.interrupt1)
  | .storeInt1 _ d1 _ i1 => some (.lpStore s.config.map.interrupt1 (i1 ||| d1))
  | .readInt2 _ _ _ => some (.lpRead s.config.map.interrupt2)
  | .storeInt2 _ _ d2 i2 => some (.lpStore s.config.map.interrupt2 (i2 ||| d2))
  | .storeInput1 i _ _ => some (.lpStore s.config.map.input1 i.new1)
  | .storeInput2 i _ _ => some (.lpStore s.config.map.input2 i.new2)
  | .storeGpioIn i _ _ => some (.lpStore s.config.map.gpioIn i.gin)
  | .setTarget => some .arbSetTarget
  | .storeCharging x => some (.lpStore s.config.map.chargingState (boolByte x.charging))
  | .storeAdcLow x => some (.lpStore (adcPair s.config s.nextChannel) (lowByte x.sample))
  | .storeAdcHigh x => some (.lpStore (adcPair s.config s.nextChannel + 1#8) (highByte x.sample))

end Sys2Proof.Machine
end

