-- ==== Sys2Proof/Certificates/Slice0/Obligations.lean ====
section
/-! DEFINITION. The statements for the provers, one definition each; OBLIGATIONS.json lists them with the rules they
formalise. A next state is written as the old one with the changed fields named, so that every field not named is stated
to be unchanged; where the register file changes, it is stated through `x[a]` at every address. -/

open Sys2Proof Sys2Proof.Machine

/-! ## Encoding -/

/-- Every operation's word decodes to that operation, under both policies and for every operand (R105, R107, R108). -/
def Obligations.DecodeOfEncodeIsTheInstruction : Prop :=
  ∀ (p : CondPolicy) (i : Instr), decode p (encode i) = .ok i

/-- R110: every selector selects a row; the refused words are exactly `ev = 3` and `op` 13 to 15. That the four words with
`COND = 0` decode to the fall-through row of their state, where R110 (a) has the engine select nothing, is the model's
(log 6, DEDUCED); no step decodes one. -/
def Obligations.RefusedWordsAreExactlyTheReservedOnes : Prop :=
  (∀ (p : CondPolicy) (w : BitVec 7), ∃ i, decodeBranch p w = .ok i) ∧
  (∀ w : BitVec 11, (∃ r, decodeEvent w = .error r) ↔ w.extractLsb' 9 2 = 3#2) ∧
  (∀ w : BitVec 20, (∃ r, decodeLocal w = .error r) ↔ 13 ≤ (w.extractLsb' 16 4).toNat)

/-- Words the spec writes out, and the operations they stand for (95_test_vectors.md). -/
def Obligations.SpecWordsDecodeAsTheSpecSays : Prop :=
  decodeTableWord 8 0x4A = some .tWriteRx ∧ decodeTableWord 8 0x45 = some .tWriteRestart ∧
  decodeTableWord 8 0x74 = some .tReadReq ∧ decodeTableWord 16 0x180 = some (.receiveData 0x80#8) ∧
  decodeTableWord 16 0x300 = some .request ∧ decodeTableWord 24 0x01700 = some (.init 0x17#8) ∧
  decodeTableWord 24 0x30480 = some (.regwr 0x04#8 0x80#8) ∧ decodeTableWord 24 0xD0000 = none

/-! ## Selecting and running an operation -/

/-- The "selected when" of R131 to R145 under `priority`: each state's tests in the source's listing order. -/
def Obligations.PrioritySelectsTheFirstHandledCondition : Prop :=
  ∀ s : State, s.config.condPolicy = .priority → s.cond ≠ 0#5 →
    let sel := fun i => decodeBranch s.config.condPolicy s.selector = .ok i
    (sel .tIdleStart ↔ s.fsm = .idle ∧ s.pend.sd = true) ∧
    (sel .tIdleAbort ↔ s.fsm = .idle ∧ s.pend.ab = true ∧ s.pend.sd = false) ∧
    (sel .tIdleRecover ↔ s.fsm = .idle ∧ s.pend.sd = false ∧ s.pend.ab = false) ∧
    (sel .tStartWrite ↔ s.fsm = .start ∧ s.rxq ≠ []) ∧
    (sel .tStartRead ↔ s.fsm = .start ∧ s.pend.rr = true ∧ s.rxq = []) ∧
    (sel .tStartFault ↔ s.fsm = .start ∧ s.rxq = [] ∧ s.pend.rr = false) ∧
    (sel .tWriteRx ↔ s.fsm = .write ∧ s.rxq ≠ []) ∧
    (sel .tWriteStop ↔ s.fsm = .write ∧ s.pend.sp = true ∧ s.rxq = []) ∧
    (sel .tWriteRestart ↔ s.fsm = .write ∧ s.pend.sd = true ∧ s.rxq = [] ∧ s.pend.sp = false) ∧
    (sel .tWriteRdreq ↔
      s.fsm = .write ∧ s.pend.rr = true ∧ s.pend.sd = false ∧ s.rxq = [] ∧ s.pend.sp = false) ∧
    (sel .tWriteRecover ↔
      s.fsm = .write ∧ s.rxq = [] ∧ s.pend.sp = false ∧ s.pend.sd = false ∧ s.pend.rr = false) ∧
    (sel .tReadReq ↔ s.fsm = .read ∧ s.pend.rr = true) ∧
    (sel .tReadStop ↔ s.fsm = .read ∧ s.pend.sp = true ∧ s.pend.rr = false) ∧
    (sel .tReadRecover ↔ s.fsm = .read ∧ s.pend.rr = false ∧ s.pend.sp = false)

/-- R105 under `strict` (the spec's decision D6, log 24): the recovery row of the state is selected exactly when a condition
the state does not handle is pending (step 1); otherwise each state's tests are those of step 2. -/
def Obligations.StrictRecoversOnAnyUnhandledCondition : Prop :=
  ∀ s : State, s.config.condPolicy = .strict → s.cond ≠ 0#5 →
    let sel := fun i => decodeBranch s.config.condPolicy s.selector = .ok i
    let onlyIdle := s.rxq = [] ∧ s.pend.rr = false ∧ s.pend.sp = false
    let onlyStart := s.pend.sd = false ∧ s.pend.sp = false ∧ s.pend.ab = false
    let onlyRead := s.pend.sd = false ∧ s.rxq = [] ∧ s.pend.ab = false
    (sel .tIdleRecover ↔ s.fsm = .idle ∧ ¬onlyIdle) ∧
    (sel .tIdleStart ↔ s.fsm = .idle ∧ onlyIdle ∧ s.pend.sd = true) ∧
    (sel .tIdleAbort ↔ s.fsm = .idle ∧ onlyIdle ∧ s.pend.ab = true ∧ s.pend.sd = false) ∧
    (sel .tStartFault ↔ s.fsm = .start ∧ ¬onlyStart) ∧
    (sel .tStartWrite ↔ s.fsm = .start ∧ onlyStart ∧ s.rxq ≠ []) ∧
    (sel .tStartRead ↔ s.fsm = .start ∧ onlyStart ∧ s.pend.rr = true ∧ s.rxq = []) ∧
    (sel .tWriteRecover ↔ s.fsm = .write ∧ s.pend.ab = true) ∧
    (sel .tWriteRx ↔ s.fsm = .write ∧ s.pend.ab = false ∧ s.rxq ≠ []) ∧
    (sel .tWriteStop ↔ s.fsm = .write ∧ s.pend.ab = false ∧ s.pend.sp = true ∧ s.rxq = []) ∧
    (sel .tWriteRestart ↔
      s.fsm = .write ∧ s.pend.ab = false ∧ s.pend.sd = true ∧ s.rxq = [] ∧ s.pend.sp = false) ∧
    (sel .tWriteRdreq ↔ s.fsm = .write ∧ s.pend.ab = false ∧ s.pend.rr = true ∧ s.pend.sd = false ∧ s.rxq = [] ∧
      s.pend.sp = false) ∧
    (sel .tReadRecover ↔ s.fsm = .read ∧ ¬onlyRead) ∧
    (sel .tReadReq ↔ s.fsm = .read ∧ onlyRead ∧ s.pend.rr = true) ∧
    (sel .tReadStop ↔ s.fsm = .read ∧ onlyRead ∧ s.pend.sp = true ∧ s.pend.rr = false)

/-- R130: an engine step decodes `(fsm, COND)` and performs that branch; when `COND = 0` or `enabled` is false there is
no engine step. -/
def Obligations.EngineTurnRunsTheSelectedBranch : Prop :=
  ∀ s : State,
    (s.enabled = false ∨ s.cond = 0#5 → engineTurn s = .next s) ∧
    (s.enabled = true → s.cond ≠ 0#5 →
      ∃ i, decodeBranch s.config.condPolicy s.selector = .ok i ∧ engineTurn s = exec i s)

/-- A step runs the operation its next move decodes to, on the state whose schedule has moved on; where the schedule has
run out the engine moves. A slave event is performed inside the step of the branch that raises it (R100, R160): what that
branch does is what the event's word, with the state's `wip`, decodes to, and the rest of the branch. (`eventData`, where
`exec` of an event leaves its result, is the model's, log 10.) -/
def Obligations.StepRunsTheDecodedOperation : Prop :=
  (∀ (s : State) (i : Instr) (rest : List Turn), s.halted = false →
    (s.schedule = [] → s.enabled = true → s.cond ≠ 0#5 →
      decodeBranch s.config.condPolicy s.selector = .ok i → step s = exec i s) ∧
    (s.schedule = .engine :: rest → s.enabled = true → s.cond ≠ 0#5 →
      decodeBranch s.config.condPolicy s.selector = .ok i → step s = exec i { s with schedule := rest }) ∧
    (∀ w, s.schedule = .localOp w :: rest → s.passInProgress = none → decodeLocal w = .ok i →
      step s = exec i { s with schedule := rest })) ∧
  (∀ (s : State) (b : Byte) (rest : List Byte) (i : Instr), s.rxq = b :: rest →
    decodeEvent ((0#2 ++ BitVec.ofBool s.writeInProgress) ++ b) = .ok i →
    ∃ t, exec i { s with rxq := rest } = .next t ∧ exec .tWriteRx s = .next { t with eventData := s.eventData }) ∧
  (∀ s : State, ∃ t b, exec .request s = .next t ∧ t.eventData = some b ∧
    exec .tReadReq s = .next { t with
      eventData := s.eventData, txlog := s.txlog ++ [b], pend := { s.pend with rr := false } }) ∧
  ∀ s : State, ∃ t, exec .finish s = .next t ∧
    exec .tWriteStop s = .next { t with
      eventData := s.eventData, pend := { s.pend with sp := false }, fsm := .idle } ∧
    exec .tReadStop s = .next { t with
      eventData := s.eventData, pend := { s.pend with sp := false }, fsm := .idle }

/-- A word placed by `withFetchWord` is the operation the very next step runs: itself, or for a slave event inside the
branch that raises it, with the event's byte and `wip` as placed (how a word is placed is the model's, log 5). -/
def Obligations.PlacedTableWordIsRunByTheNextStep : Prop :=
  ∀ (s : State) (nbits w : Nat) (i : Instr), s.config.condPolicy = .priority →
    decodeTableWord nbits w = some i →
    let placed := s.withFetchWord nbits w
    step placed = exec (performedBy i) { placed with schedule := s.schedule } ∧
      (∀ b, i = .receiveAddr b → placed.writeInProgress = false ∧ ∃ rest, placed.rxq = b :: rest) ∧
      ∀ b, i = .receiveData b → placed.writeInProgress = true ∧ ∃ rest, placed.rxq = b :: rest

/-- R56: while `halted` is true no agent takes a step. -/
def Obligations.HaltedMachineTakesNoStep : Prop :=
  ∀ s : State, s.halted = true → step s = .fault .halted

/-- R31: the environment's moves, and V7's refusal of a byte for a full queue of finite depth. -/
def Obligations.EnvironmentMovesFillTheFrontEnd : Prop :=
  ∀ (s : State) (rest : List Turn), s.halted = false →
    (∀ c, s.schedule = .raise c :: rest →
      step s = .next { s with
        schedule := rest
        pend := ⟨s.pend.sd || c == .sd, s.pend.rr || c == .rr, s.pend.sp || c == .sp, s.pend.ab || c == .ab⟩ }) ∧
    (∀ b, s.schedule = .push b :: rest → (∀ d, s.config.rxDepth = some d → s.rxq.length < d) →
      step s = .next { s with schedule := rest, rxq := s.rxq ++ [b] }) ∧
    (∀ b d, s.schedule = .push b :: rest → s.config.rxDepth = some d → d ≤ s.rxq.length →
      step s = .refused .rxQueueFull)

/-- R217: "`INJ` operations never fall inside a pass": a local-port operation or a new pass waits for the pass in
progress, which takes one micro-step. -/
def Obligations.LocalOperationsWaitForThePassInProgress : Prop :=
  ∀ (s : State) (p : Pass) (rest : List Turn), s.halted = false → s.passInProgress = some p →
    ((∃ w, s.schedule = .localOp w :: rest) ∨ (∃ d, s.schedule = .pass d :: rest)) → step s = .next s.passStep

/-! ## The engine's branches (40_bus_fsm.md) -/

/-- R131, R132, R134, R135, R139, R140: the branches that raise no event. Each clears at most the latched condition it
handles; a level condition is left for the next step. -/
def Obligations.EventlessBranchesMoveTheStateMachine : Prop :=
  ∀ s : State,
    exec .tIdleStart s = .next { s with pend := { s.pend with sd := false }, fsm := .start } ∧
    exec .tIdleAbort s = .next { s with pend := { s.pend with ab := false } } ∧
    exec .tStartWrite s = .next { s with fsm := .write } ∧
    exec .tStartRead s = .next { s with fsm := .read } ∧
    exec .tWriteRestart s = .next { s with pend := { s.pend with sd := false }, fsm := .read } ∧
    exec .tWriteRdreq s = .next { s with fsm := .read }

/-- R137 with R161 and R162: `T_WRITE_RX` delivers the oldest byte to RECEIVE, as the address or as data. -/
def Obligations.WriteRxDeliversTheOldestByte : Prop :=
  ∀ (s : State) (b : Byte) (rest : List Byte), s.rxq = b :: rest →
    (s.writeInProgress = false →
      exec .tWriteRx s = .next { s with rxq := rest, cursor := b, writeInProgress := true }) ∧
    (s.writeInProgress = true →
      ∃ t, exec .tWriteRx s = .next t ∧
        t = { s with rxq := rest, registers := t.registers, modified := t.modified, cursor := s.cursor + 1#8 } ∧
        (∀ a, t.reg a = if a = s.cursor ∧ s.ro a = false then b else s.reg a) ∧
        ∀ a, t.dirty a = if a = s.cursor ∧ s.ro a = false then true else s.dirty a)

/-- R31: `RxPop` is "defined only when `rxq` is not empty". That `T_WRITE_RX` on an empty queue is the fault `rxQueueEmpty`
is the model's choice (log 8, DESIGN CHOICE): the spec gives it no meaning. No engine turn comes to a fault. -/
def Obligations.EmptyQueueIsNeverPoppedByTheEngine : Prop :=
  (∀ s : State, s.rxq = [] → exec .tWriteRx s = .fault .rxQueueEmpty) ∧
  ∀ (s : State) (r : Fault), engineTurn s ≠ .fault r

/-- R138, R144: both stop branches clear the stop, finish and go to IDLE. -/
def Obligations.StopBranchesFinishAndGoIdle : Prop :=
  ∀ s : State,
    exec .tWriteStop s =
      .next { s with pend := { s.pend with sp := false }, writeInProgress := false, fsm := .idle } ∧
    exec .tReadStop s =
      .next { s with pend := { s.pend with sp := false }, writeInProgress := false, fsm := .idle }

/-- R143 with R163 and R164: one byte per request, the one at the cursor before anything is cleared. -/
def Obligations.ReadReqSuppliesTheByteAtTheCursor : Prop :=
  ∀ s : State, ∃ t, exec .tReadReq s = .next t ∧
    t = { s with
      registers := t.registers, writeInProgress := false, cursor := s.cursor + 1#8
      target := if s.cursor = s.config.map.interrupt2 then false else s.target
      clearPending := if s.cursor = s.config.map.interrupt2 then true else s.clearPending
      txlog := s.txlog ++ [s.reg s.cursor], pend := { s.pend with rr := false } } ∧
    ∀ a, t.reg a =
      if s.cursor = s.config.map.interrupt2 ∧ (a = s.config.map.interrupt1 ∨ a = s.config.map.interrupt2) then 0x00#8
      else s.reg a

/-- R133, R136, R141, R145 with R142: every recovery branch, with the labels of R251 in the model's trace. -/
def Obligations.RecoveryBranchesClearEverythingSilently : Prop :=
  ∀ s : State,
    let recovered := fun cause : RecoverCause => ({ s with
      fsm := .idle, pend := ⟨false, false, false, false⟩, rxq := s.rxq.tail
      txlog := s.txlog ++ (if s.pend.rr then [s.config.txSentinel] else [])
      recoveries := s.recoveries ++ [cause] } : State)
    exec .tIdleRecover s = .next (recovered .idleUnexpected) ∧
    exec .tStartFault s = .next (recovered .startFault) ∧
    exec .tWriteRecover s = .next (recovered .writeAbort) ∧
    exec .tReadRecover s = .next (recovered .readUnexpected)

/-! ## The slave events (41_slave_events.md) -/

/-- R161, R165: the address phase loads the cursor, and FINISH clears `wip`, whatever the other bits of its word; no
register and no dirty bit. (`eventData` is the model's, log 10, DESIGN CHOICE.) -/
def Obligations.AddressPhaseAndFinishTouchNoRegister : Prop :=
  ∀ (s : State) (b : Byte) (x : BitVec 9),
    decodeEvent (0#3 ++ b) = .ok (.receiveAddr b) ∧ decodeEvent (2#2 ++ x) = .ok .finish ∧
    exec (.receiveAddr b) s = .next { s with cursor := b, writeInProgress := true, eventData := none } ∧
    exec .finish s = .next { s with writeInProgress := false, eventData := none }

/-- R162, R76: the data phase, at a writable and at a read-only address. (`eventData` is the model's, log 10, DESIGN
CHOICE.) -/
def Obligations.DataPhaseStoresUnlessReadOnlyAndAdvances : Prop :=
  ∀ (s : State) (b : Byte), decodeEvent (1#3 ++ b) = .ok (.receiveData b) ∧
    ∃ t, exec (.receiveData b) s = .next t ∧
    t = { s with
      registers := t.registers, modified := t.modified, cursor := s.cursor + 1#8, eventData := none } ∧
    (∀ a, t.reg a = if a = s.cursor ∧ s.ro a = false then b else s.reg a) ∧
    ∀ a, t.dirty a = if a = s.cursor ∧ s.ro a = false then true else s.dirty a

/-- R163, R164: REQUEST, whatever the other bits of its word, returns the old byte (at `A_INT2` too: the spec's decision
D18); at `A_INT2` it is the acknowledge. (That the byte is left in `eventData` is the model's, log 10, DESIGN CHOICE.) -/
def Obligations.RequestReturnsTheOldByteAndAcknowledges : Prop :=
  ∀ (s : State) (x : BitVec 9), decodeEvent (1#2 ++ x) = .ok .request ∧ ∃ t, exec .request s = .next t ∧
    t = { s with
      registers := t.registers, writeInProgress := false, cursor := s.cursor + 1#8
      target := if s.cursor = s.config.map.interrupt2 then false else s.target
      clearPending := if s.cursor = s.config.map.interrupt2 then true else s.clearPending
      eventData := some (s.reg s.cursor) } ∧
    ∀ a, t.reg a =
      if s.cursor = s.config.map.interrupt2 ∧ (a = s.config.map.interrupt1 ∨ a = s.config.map.interrupt2) then 0x00#8
      else s.reg a

/-! ## The local port (42_local_port.md) -/

/-- R181: INIT, and its refusal while enabled. `a[7]` is ignored. The read-data return after it, none, is the model's
(log 10, DESIGN CHOICE). -/
def Obligations.InitEnablesAndEmptiesTheFrontEnd : Prop :=
  ∀ (s : State) (a : BitVec 8),
    (s.enabled = false →
      exec (.init a) s = .next { s with
        slaveAddr := a.extractLsb' 0 7, pend := ⟨false, false, false, false⟩, rxq := [], fsm := .idle
        enabled := true, readData := none }) ∧
    (s.enabled = true → exec (.init a) s = .refused .initWhileEnabled)

/-- R182: DEINIT, and its two refusals. The read-data return after it, none, is the model's (log 10, DESIGN CHOICE). -/
def Obligations.DeinitDisablesOnlyAnIdleEngine : Prop :=
  ∀ s : State,
    (s.enabled = true → s.fsm = .idle → exec .deinit s = .next { s with enabled := false, readData := none }) ∧
    (s.enabled = true → s.fsm ≠ .idle → exec .deinit s = .refused .deinitInTransaction) ∧
    (s.enabled = false → exec .deinit s = .refused .deinitWhileDisabled)

/-- R183, R185, R187, R193: the operations that only return a value write nothing, `LP_READ` at `A_INT2` too. -/
def Obligations.LocalReadsHaveNoSideEffect : Prop :=
  ∀ (s : State) (a : Addr),
    exec .tip s = .next { s with readData := some (if s.fsm = .idle then 0x00#8 else 0x01#8) } ∧
    exec (.lpRead a) s = .next { s with readData := some (s.reg a) } ∧
    exec (.lpModtest a) s = .next { s with readData := some (if s.dirty a then 0x01#8 else 0x00#8) } ∧
    exec .getResetAllowed s =
      .next { s with readData := some (if s.reg s.config.map.resetLock = 0x00#8 then 0x01#8 else 0x00#8) }

/-- R184: REGWR follows the rules of a bus write and leaves the cursor alone. The read-data return after it, none, is the
model's (log 10, DESIGN CHOICE). -/
def Obligations.RegwrFollowsTheBusWriteRules : Prop :=
  ∀ (s : State) (a : Addr) (v : Byte), ∃ t, exec (.regwr a v) s = .next t ∧
    t = { s with registers := t.registers, modified := t.modified, readData := none } ∧
    (∀ b, t.reg b = if b = a ∧ s.ro b = false then v else s.reg b) ∧
    ∀ b, t.dirty b = if b = a ∧ s.ro b = false then true else s.dirty b

/-- R186, R191, R192: the raw stores of the local port ignore `read_only` and leave every dirty bit alone. The
read-data return after them, none, is the model's (log 10, DESIGN CHOICE). -/
def Obligations.LocalStoresAreRaw : Prop :=
  ∀ (s : State) (a : Addr) (v : Byte),
    let stored := fun (i : Instr) (at' : Addr) => ∃ t, exec i s = .next t ∧
      t = { s with registers := t.registers, readData := none } ∧
      ∀ b, t.reg b = if b = at' then v else s.reg b
    stored (.lpStore a v) a ∧ stored (.setCrashDebug v) s.config.map.crashDebug ∧
      stored (.setResetAttempted v) s.config.map.resetAttempted

/-- R188: LP_MODCLR clears one dirty bit and nothing else of the block. The read-data return after it, none, is the
model's (log 10, DESIGN CHOICE). -/
def Obligations.ModclrClearsOneDirtyBit : Prop :=
  ∀ (s : State) (a : Addr), ∃ t, exec (.lpModclr a) s = .next t ∧
    t = { s with modified := t.modified, readData := none } ∧
    ∀ b, t.dirty b = if b = a then false else s.dirty b

/-- R189, R190: ARB_SET_TARGET moves no line, and ARB_RESOLVE arm by arm. That `current` is cleared in the
`clear_pending` arm is the spec's decision D23 (V15). The read-data return after both, none, is the model's (log 10,
DESIGN CHOICE). -/
def Obligations.ArbitrationDrivesTheLineOnlyAtResolve : Prop :=
  ∀ s : State,
    exec .arbSetTarget s = .next { s with target := true, readData := none } ∧
    (s.clearPending = true →
      exec .arbResolve s = .next { s with
        current := false, clearPending := false, emitted := s.emitted ++ [.line false], readData := none }) ∧
    (s.clearPending = false → s.target ≠ s.current →
      exec .arbResolve s = .next { s with
        current := s.target, emitted := s.emitted ++ [.line s.target], readData := none }) ∧
    (s.clearPending = false → s.target = s.current → exec .arbResolve s = .next { s with readData := none })

/-! ## Whole-machine rules -/

/-- R54: the state after power-on, under any configuration (`slave_addr` and the fields that are the model's own are not
named: R54 gives them no value); and R11, R12, R32, R46: REF meets the constraints on the parameters, and its reset
holds the identification values. The register contents and the cursor are the spec's own decision D15. -/
def Obligations.PowerOnStateIsTheSpecs : Prop :=
  (∀ c : Config,
    (∀ a, (State.resetOf c).reg a = ((c.initRegs.find? (fun x => x.1 == a.toNat)).map (·.2)).getD 0x00#8) ∧
    (∀ a, (State.resetOf c).ro a = c.ro.getLsbD a.toNat) ∧ (∀ a, (State.resetOf c).dirty a = false) ∧
    (State.resetOf c).cursor = 0x00#8 ∧ (State.resetOf c).writeInProgress = false ∧ (State.resetOf c).fsm = .idle ∧
    (State.resetOf c).target = false ∧ (State.resetOf c).current = false ∧ (State.resetOf c).clearPending = false ∧
    (State.resetOf c).enabled = false ∧ (State.resetOf c).cond = 0#5 ∧ (State.resetOf c).txlog = [] ∧
    (State.resetOf c).nextChannel = 0 ∧ (State.resetOf c).halted = false) ∧
  Config.ref.wf = true ∧ State.reset.config = Config.ref ∧ State.reset.identified

/-- R53, R54: the invariant holds after power-on, under every configuration. -/
def Obligations.InvariantHoldsAfterPowerOn : Prop := ∀ c : Config, (State.resetOf c).Inv

/-- R53: every step keeps the invariant: the register file's canonical form, `read_only = RO`, no dirty read-only
address, IDLE while not enabled, the queue's depth. -/
def Obligations.EveryStepKeepsTheInvariant : Prop :=
  ∀ s t : State, s.Inv → step s = .next t → t.Inv

/-- R53 (f): on a step with no recovery, `wip` is true only in WRITE or in READ, and in READ not after the first
REQUEST has cleared it. -/
def Obligations.WriteInProgressOnlyInsideATransaction : Prop :=
  ∀ s t : State, s.Inv → s.addressPhaseSound → step s = .next t → t.recoveries = s.recoveries →
    t.addressPhaseSound ∧ (s.fsm = .read → s.writeInProgress = false → t.fsm = .read → t.writeInProgress = false)

/-- R147: the state graph. The next state is a constant of the selected branch, `IDLE` for the stop and the recovery
branches. On every step, IDLE is left only by a start-detected, to START; no edge but this one enters START; READ is left
to IDLE alone. -/
def Obligations.StateMachineFollowsItsGraph : Prop :=
  (∀ (s : State) (i : Instr), s.enabled = true → s.cond ≠ 0#5 →
    decodeBranch s.config.condPolicy s.selector = .ok i →
    ∃ t, engineTurn s = .next t ∧ branchTarget i = some t.fsm) ∧
  ∀ s t : State, step s = .next t →
    (t.fsm = s.fsm ∨ t.fsm = .idle ∨ fsmEdge s.fsm t.fsm = true) ∧
    (s.fsm = .idle → t.fsm ≠ .idle → s.pend.sd = true ∧ s.enabled = true)

/-- R22, R11: no step changes `read_only` or the configuration. -/
def Obligations.ReadOnlyTableIsImmutable : Prop :=
  ∀ s t : State, step s = .next t → t.readOnly = s.readOnly ∧ t.config = s.config

/-- R23: what sets a dirty bit (an accepted write, by RECEIVE in the data phase or REGWR) and what clears one
(LP_MODCLR), over every operation and every micro-step of a pass. -/
def Obligations.DirtyBitsHaveTheirWritersOnly : Prop :=
  (∀ (i : Instr) (s t : State) (a : Addr), exec i s = .next t → s.dirty a = false → t.dirty a = true →
    s.ro a = false ∧
      ((i = .tWriteRx ∧ s.writeInProgress = true ∧ s.cursor = a) ∨ (∃ b, i = .receiveData b ∧ s.cursor = a) ∨
        ∃ v, i = .regwr a v)) ∧
  (∀ (i : Instr) (s t : State) (a : Addr), exec i s = .next t → s.dirty a = true → t.dirty a = false →
    i = .lpModclr a) ∧
  ∀ (s : State) (a : Addr), (s.dirty a = false → s.passStep.dirty a = false) ∧
    (s.dirty a = true → s.passStep.dirty a = false → ∃ d, s.passInProgress = some ⟨d, .modClear a⟩)

/-- R24, R25, R27: the only writers of the cursor, of `write_in_progress` and of the three arbitration bits, over every
operation. -/
def Obligations.ControlBitsHaveTheirWritersOnly : Prop :=
  ∀ (i : Instr) (s t : State), exec i s = .next t →
    (t.cursor ≠ s.cursor →
      i = .tWriteRx ∨ i = .tReadReq ∨ i = .request ∨ (∃ b, i = .receiveAddr b) ∨ ∃ b, i = .receiveData b) ∧
    (s.writeInProgress = false → t.writeInProgress = true → i = .tWriteRx ∨ ∃ b, i = .receiveAddr b) ∧
    (s.writeInProgress = true → t.writeInProgress = false →
      i = .tReadReq ∨ i = .request ∨ i = .tWriteStop ∨ i = .tReadStop ∨ i = .finish) ∧
    (t.current ≠ s.current → i = .arbResolve) ∧
    (s.target = false → t.target = true → i = .arbSetTarget) ∧
    (s.target = true → t.target = false → (i = .tReadReq ∨ i = .request) ∧ s.cursor = s.config.map.interrupt2) ∧
    (s.clearPending = false → t.clearPending = true →
      (i = .tReadReq ∨ i = .request) ∧ s.cursor = s.config.map.interrupt2) ∧
    (s.clearPending = true → t.clearPending = false → i = .arbResolve)

/-- R90: an engine step depends on nothing of the polling context: two states that differ in the arbitration bits, the
dirty bits and the Dispatcher's state alone take the same engine step and differ in nothing more afterwards. -/
def Obligations.EngineDependsOnNothingOfThePollingContext : Prop :=
  ∀ s s' t : State, s.sameForEngine s' → engineTurn s = .next t →
    ∃ t', engineTurn s' = .next t' ∧ t.sameForEngine t'

/-- R53 (c), R162, R164: the bus master cannot change a read-only register or its dirty bit, but for the acknowledge,
which zeroes the two interrupt-pending registers. -/
def Obligations.BusCannotChangeReadOnlyRegisters : Prop :=
  ∀ (s t : State) (a : Addr), engineTurn s = .next t → s.ro a = true →
    t.dirty a = s.dirty a ∧
      (t.reg a = s.reg a ∨
        (t.reg a = 0x00#8 ∧ (a = s.config.map.interrupt1 ∨ a = s.config.map.interrupt2) ∧ s.fsm = .read ∧
          s.cursor = s.config.map.interrupt2))

/-- The progress sentence of R146: every engine step changes `fsm`, or removes a condition and adds none, or shortens
the queue. -/
def Obligations.EveryEngineStepMakesProgress : Prop :=
  ∀ s t : State, s.enabled = true → s.cond ≠ 0#5 → engineTurn s = .next t →
    t.fsm ≠ s.fsm ∨ (t.cond ≠ s.cond ∧ t.cond &&& ~~~s.cond = 0#5) ∨ t.rxq.length < s.rxq.length

/-- With no new environment move a run of engine steps ends with `COND = 0` within `|rxq| + 6` steps, under both
policies. (R146 claims `|rxq| + 5`; the next statement states it.) -/
def Obligations.EngineRunEndsWithinSixMoreThanTheQueue : Prop :=
  ∀ s : State, s.engineAlone →
    ∃ k, k ≤ s.rxq.length + 6 ∧ ∃ t, Sys2Proof.core.run k s = .next t ∧ t.cond = 0#5

/-- R146's own bound, `|rxq| + 5`. It fails: in START, with one byte queued and `{SD, RR, SP, AB}` pending, the engine
takes seven steps. -/
def Obligations.EngineRunEndsWithinFiveMoreThanTheQueue : Prop :=
  ∀ s : State, s.engineAlone →
    ∃ k, k ≤ s.rxq.length + 5 ∧ ∃ t, Sys2Proof.core.run k s = .next t ∧ t.cond = 0#5

/-- R294: a pending read-request is answered, with exactly one byte, by the engine alone and in every state. -/
def Obligations.PendingReadIsAlwaysAnswered : Prop :=
  ∀ s : State, s.engineAlone → s.pend.rr = true →
    ∃ k t, Sys2Proof.core.run k s = .next t ∧ t.pend.rr = false ∧ ∃ b, t.txlog = s.txlog ++ [b]

/-- R166, R73 for writes: after `n` queued data bytes the cursor has advanced by `n` modulo 256, byte `i` was offered to
address `start + i`, the last byte offered to an address wins, and every other register and dirty bit is as before. -/
def Obligations.DataBytesLandAtRisingAddresses : Prop :=
  ∀ s : State, s.engineAlone → s.fsm = .write → s.writeInProgress = true →
    (s.config.condPolicy = .strict → s.pend.ab = false) →
    ∃ t, Sys2Proof.core.run s.rxq.length s = .next t ∧
      t = { s with rxq := [], registers := t.registers, modified := t.modified
                   cursor := s.cursor + BitVec.ofNat 8 s.rxq.length } ∧
      (∀ (i : Nat) (h : i < s.rxq.length),
        s.ro (s.cursor + BitVec.ofNat 8 i) = false →
        (∀ j, i < j → j < s.rxq.length → s.cursor + BitVec.ofNat 8 j ≠ s.cursor + BitVec.ofNat 8 i) →
        t.reg (s.cursor + BitVec.ofNat 8 i) = s.rxq[i] ∧ t.dirty (s.cursor + BitVec.ofNat 8 i) = true) ∧
      ∀ a, (s.ro a = true ∨ ∀ i, i < s.rxq.length → s.cursor + BitVec.ofNat 8 i ≠ a) →
        t.reg a = s.reg a ∧ t.dirty a = s.dirty a

/-- R166, R73, R164 for reads: `m` requests supply the bytes at `start`, `start + 1`, ... modulo 256; once the run has
passed over `A_INT2` the two interrupt-pending registers read zero. -/
def Obligations.RequestsReadRisingAddresses : Prop :=
  ∀ (m : Nat) (s : State), s.halted = false → s.enabled = true → s.fsm = .read → s.rxq = [] →
    s.pend = ⟨false, false, false, false⟩ →
    s.schedule = (List.replicate m [Turn.raise .rr, Turn.engine]).flatten →
    ∃ t, Sys2Proof.core.run (2 * m) s = .next t ∧
      t.cursor = s.cursor + BitVec.ofNat 8 m ∧ t.fsm = .read ∧
      t.txlog = s.txlog ++ (List.range m).map (fun j =>
        if (List.range j).any (fun i => s.cursor + BitVec.ofNat 8 i == s.config.map.interrupt2)
            && (s.cursor + BitVec.ofNat 8 j == s.config.map.interrupt1
              || s.cursor + BitVec.ofNat 8 j == s.config.map.interrupt2)
        then 0x00#8 else s.reg (s.cursor + BitVec.ofNat 8 j))

/-! ## Transactions on the wire -/

/-- R148 under `priority`: however engine steps fall between the moves of a conforming master, once the engine has nothing
left to do the transaction has had the effect it has on the prompt schedule, and `fsm = IDLE`. -/
def Obligations.ConformingTransactionsDoNotDependOnTheSchedule : Prop :=
  ∀ (s t : State) (x : Transaction) (ts : List Turn) (n : Nat),
    s.halted = false → s.enabled = true → s.fsm = .idle → s.cond = 0#5 → s.config.condPolicy = .priority →
    x.legal = true → ts.filter (fun u => u != .engine) = x.moves →
    conformingRun ts.length true { s with schedule := ts } = true →
    ts.length ≤ n → Sys2Proof.core.run n { s with schedule := ts } = .next t → t.cond = 0#5 →
    t.fsm = .idle ∧
      Sys2Proof.core.run (promptly x.moves).length { s with schedule := promptly x.moves } = .next t

/-- R148 under a prompt environment: the two policies take the same steps, so that a transaction whose moves each come when
`COND = 0` has the same effect under both, the effect of R113's prompt schedule. That schedule's two engine turns after
each move are the model's form of `eng*` (log 33, DESIGN CHOICE); a transaction on it runs, ends in `IDLE` with nothing
pending, and leaves `wip` false. -/
def Obligations.PromptTransactionsAreTheSameUnderBothPolicies : Prop :=
  ∀ (s : State) (x : Transaction),
    s.halted = false → s.enabled = true → s.fsm = .idle → s.cond = 0#5 → s.config.condPolicy = .priority →
    (∀ d, s.config.rxDepth = some d → 0 < d) → x.legal = true →
    let strict : Config := { s.config with condPolicy := .strict }
    (∃ t, Sys2Proof.core.run (promptly x.moves).length { s with schedule := promptly x.moves } = .next t ∧
      Sys2Proof.core.run (promptly x.moves).length { s with config := strict, schedule := promptly x.moves } =
        .next { t with config := strict } ∧
      t.fsm = .idle ∧ t.cond = 0#5 ∧ t.schedule = [] ∧ (x ≠ .probe → t.writeInProgress = false)) ∧
    ∀ (ts : List Turn) (n : Nat), ts.filter (fun u => u != .engine) = x.moves →
      promptRun ts.length { s with schedule := ts } = true →
      ∃ t, Sys2Proof.core.run n { s with schedule := ts } = .next t ∧
        Sys2Proof.core.run n { s with config := strict, schedule := ts } = .next { t with config := strict } ∧
        (ts.length ≤ n → t.cond = 0#5 →
          Sys2Proof.core.run (promptly x.moves).length { s with schedule := promptly x.moves } = .next t)

/-! ## Hazards (70_reset_and_hazards.md) -/

/-- R285: after an abort in the middle of a write the next write's first byte is stored at the old cursor, as data. -/
def Obligations.AbortLeavesAStaleAddressPhase : Prop :=
  ∀ (s : State) (b : Byte), s.halted = false → s.enabled = true → s.fsm = .write → s.writeInProgress = true →
    s.rxq = [] → s.pend = ⟨false, false, false, true⟩ → (∀ d, s.config.rxDepth = some d → 0 < d) →
    s.schedule = [.engine, .raise .sd, .engine, .push b, .engine, .engine] →
    ∃ t, Sys2Proof.core.run 6 s = .next t ∧ t.fsm = .write ∧ t.cursor = s.cursor + 1#8 ∧
      t.recoveries = s.recoveries ++ [.writeAbort] ∧
      ∀ a, t.reg a = if a = s.cursor ∧ s.ro a = false then b else s.reg a

/-- R288: a repeated start inside a read is a fault, and the next read-request is answered with `TX_SENTINEL` while the
cursor stays. -/
def Obligations.RestartInsideAReadYieldsTheSentinel : Prop :=
  ∀ s : State, s.halted = false → s.enabled = true → s.fsm = .read → s.rxq = [] →
    s.pend = ⟨true, false, false, false⟩ → s.schedule = [.engine, .raise .rr, .engine] →
    Sys2Proof.core.run 3 s = .next { s with
      fsm := .idle, pend := ⟨false, false, false, false⟩, txlog := s.txlog ++ [s.config.txSentinel]
      recoveries := s.recoveries ++ [.readUnexpected, .idleUnexpected], schedule := [] }

/-- R284 (a): under the interleaved setting there is a run from a state that meets the invariant in which a value the
bus master has written stays in its register with a clear dirty bit and its side effect never runs. No local-port
operation is on the schedule, and after `m` steps the value stands in the register with its dirty bit set. -/
def Obligations.LostDispatchRunExists : Prop :=
  ∃ (s u t : State) (m n : Nat), s.Inv ∧ s.config = Config.ref ∧ s.fsm = .idle ∧ s.dirty 0x04#8 = true ∧
    s.reg 0x04#8 = 0x10#8 ∧ s.emitted = [] ∧
    (∀ a ∈ s.schedule, (∃ c, a = .raise c) ∨ (∃ b, a = .push b) ∨ a = .engine ∨ (∃ d, a = .pass d) ∨ a = .poll) ∧
    m < n ∧ Sys2Proof.core.run m s = .next u ∧ u.reg 0x04#8 = 0x20#8 ∧ u.dirty 0x04#8 = true ∧
    u.emitted = [.setLcdBacklight 0x10#8] ∧
    Sys2Proof.core.run n s = .next t ∧ t.reg 0x04#8 = 0x20#8 ∧ t.dirty 0x04#8 = false ∧
    t.emitted = [.setLcdBacklight 0x10#8] ∧ t.fsm = .idle

/-! ## The Dispatcher and the handlers (43_dispatcher.md, 44_side_effect_handlers.md) -/

/-- R82, R210: the gate is tested once, at the top of a pass. A pass whose test returns true is skipped whole, in either
setting; else, where passes are interleaved, step 1 is next and nothing else has happened. R211: step 1 is one
`ARB_RESOLVE`. That step 2 (R212) begins at address 0x00 is the spec's choice of order (D22, log 19, DESIGN CHOICE).
That the value TIP returned stays on the read-data return is the model's (log 10, DESIGN CHOICE). -/
def Obligations.GateDecidesThePass : Prop :=
  (∀ (s : State) (d : Draws) (rest : List Turn), s.halted = false → s.passInProgress = none →
    s.schedule = .pass d :: rest →
    (s.fsm ≠ .idle → step s = .next { s with schedule := rest, readData := some 0x01#8 }) ∧
    (s.fsm = .idle → s.config.passAtomicity = .interleaved →
      step s = .next { s with
        schedule := rest, readData := some 0x00#8, passInProgress := some ⟨d, .line⟩ })) ∧
  ∀ (s : State) (d : Draws), s.passInProgress = some ⟨d, .line⟩ →
    ∃ t, exec .arbResolve s = .next t ∧ s.passStep = { t with passInProgress := some ⟨d, .modTest 0x00#8⟩ }

/-- R210: every micro-step of a pass but a handler is one local-port operation; besides, only the place in the pass and
the round-robin index move. -/
def Obligations.PassMicroStepsAreLocalOperations : Prop :=
  ∀ (s : State) (d : Draws) (p : PassPoint) (i : Instr), s.passInProgress = some ⟨d, p⟩ → passOp s d p = some i →
    ∃ t, exec i s = .next t ∧
      s.passStep = { t with passInProgress := s.passStep.passInProgress, nextChannel := s.passStep.nextChannel } ∧
      (s.passStep.nextChannel ≠ s.nextChannel → ∃ x, p = .storeAdcHigh x)

/-- R212: a clean address costs one test; a dirty one is read, handled with the stored value and then cleared, once, and
the pass goes on at the next address. Of a dispatch of `ADC_TRIGGER` nothing is said about the registers and the ADC
index: V14 puts such a claim outside what the spec supports. The read-data return after the LP_MODCLR, none, is the
model's (log 10, DESIGN CHOICE). -/
def Obligations.DirtyAddressIsDispatchedOnce : Prop :=
  ∀ (s : State) (d : Draws) (a : Addr), s.halted = false → s.passInProgress = some ⟨d, .modTest a⟩ →
    let after : Option Pass := some ⟨d, if a = 0xFF#8 then .mirrorUsb else .modTest (a + 1#8)⟩
    let t := State.passRun 4 s
    (s.dirty a = false → s.passStep = { s with passInProgress := after, readData := some 0x00#8 }) ∧
    (s.dirty a = true → (s.handler a (s.reg a)).halted = false →
      t = { s with
        modified := t.modified, emitted := (s.handler a (s.reg a)).emitted, passInProgress := after, readData := none
        registers := if a = s.config.map.adcTrigger then t.registers else s.registers
        nextChannel := if a = s.config.map.adcTrigger then t.nextChannel else s.nextChannel } ∧
      ∀ b, t.dirty b = if b = a then false else s.dirty b)

/-- R230: a register with no handler has the empty action, so that its dispatch alters no other register. -/
def Obligations.UnhandledAddressesHaveNoSideEffect : Prop :=
  ∀ (s : State) (a : Addr) (v : Byte), a ∉ handledAddrs s.config → s.handler a v = s

/-- R231 to R235, R237, R238: what each handler emits, in a configuration that meets R12. Of `ADC_TRIGGER` the output alone
is stated: V14 puts a claim about the registers across it outside what the spec supports (log 29). -/
def Obligations.HandlersEmitTheirOutputs : Prop :=
  ∀ (s : State) (v : Byte), s.config.wf = true →
    s.handler s.config.map.gpioDir v = { s with emitted := s.emitted ++
      [.gpioDir 0 (v.getLsbD 0), .gpioDir 1 (v.getLsbD 1), .gpioDir 2 (v.getLsbD 2), .gpioDir 3 (v.getLsbD 3)] } ∧
    s.handler s.config.map.gpioOut v = { s with emitted := s.emitted ++
      [.gpioOut 0 (v.getLsbD 0), .gpioOut 1 (v.getLsbD 1), .gpioOut 2 (v.getLsbD 2), .gpioOut 3 (v.getLsbD 3)] } ∧
    s.handler s.config.map.fpga v = { s with emitted := s.emitted ++
      [.fpgaReset (v.getLsbD 0), .fpgaLoopback (v.getLsbD 1)] } ∧
    s.handler s.config.map.lcdBacklight v = { s with emitted := s.emitted ++ [.setLcdBacklight v] } ∧
    s.handler s.config.map.irTrigger v = (if v = s.config.irSentinelByte then
      { s with emitted := s.emitted ++
        [.irTransmit (~~~(s.reg s.config.map.irAddress) ++ s.reg s.config.map.irAddress)
          (~~~(s.reg s.config.map.irCommand) ++ s.reg s.config.map.irCommand)] } else s) ∧
    (s.handler s.config.map.adcTrigger v).emitted = s.emitted ++ [.adcTrigger v] ∧
    s.handler s.config.map.ledMode v = { s with emitted := s.emitted ++ [.ledMode v] } ∧
    ∃ ws : List (BitVec 32), s.handler s.config.map.ledLength v = { s with emitted := s.emitted ++ ws.map .ledPushWord } ∧
      ws.length = min v.toNat 10 ∧
      ∀ (k : Nat) (h : k < ws.length), ws[k] =
        s.reg (s.config.map.ledData + BitVec.ofNat 8 (4 * k + 3)) ++ s.reg (s.config.map.ledData + BitVec.ofNat 8 (4 * k + 2))
          ++ s.reg (s.config.map.ledData + BitVec.ofNat 8 (4 * k + 1)) ++ s.reg (s.config.map.ledData + BitVec.ofNat 8 (4 * k))

/-- R236, R253: dispatching 0xBE from the bootloader trigger ends the run with the dirty bit still set, and any other
value does nothing. -/
def Obligations.BootloaderSentinelEndsTheRun : Prop :=
  ∀ (s : State) (d : Draws) (v : Byte), s.config.wf = true → s.halted = false →
    s.passInProgress = some ⟨d, .handler s.config.map.blTrigger v⟩ →
    (v = 0xBE#8 →
      s.passStep = { s with
        halted := true
        emitted := s.emitted ++ [.watchdogDisable, .watchdogScratch s.config.slotA s.config.magicWord,
          .watchdogScratch s.config.slotB (~~~s.config.magicWord), .watchdogReboot] } ∧
      step s.passStep = .fault .halted) ∧
    (v ≠ 0xBE#8 → s.passStep = { s with passInProgress := some ⟨d, .modClear s.config.map.blTrigger⟩ })

/-- R213: the status mirror stores the two drawn bytes, sets no dirty bit, and overwrites what the bus master wrote, in a
configuration that meets R12; then the pass goes on as R210 says: to the input poll if it is due, else to the ADC poll if
it is due, else it ends. (That the read-data return is none after a store is the model's, log 10, DESIGN CHOICE.) -/
def Obligations.StatusMirrorStoresTheDrawnBytes : Prop :=
  ∀ (s : State) (d : Draws), s.config.wf = true → s.halted = false → s.passInProgress = some ⟨d, .mirrorUsb⟩ →
    let t := State.passRun 2 s
    (t = { s with registers := t.registers, passInProgress := t.passInProgress, readData := none } ∧
      ∀ a, t.reg a =
        if a = s.config.map.usb then d.usb else if a = s.config.map.webusbMode then d.webusbMode else s.reg a) ∧
    (∀ i, d.inputs = some i → t.passInProgress = some ⟨d, .readOld1 i⟩) ∧
    (∀ x, d.inputs = none → d.adc = some x → t.passInProgress = some ⟨d, .storeCharging x⟩) ∧
    (d.inputs = none → d.adc = none → t.passInProgress = none)

/-- R214, with no engine step inside it: each input change is ORed into its interrupt-pending register, the snapshots
are stored, and `target` is set exactly when some bit differs. The read-data return after the last store or
ARB_SET_TARGET, none, is the model's (log 10, DESIGN CHOICE). -/
def Obligations.InputPollLatchesEveryChange : Prop :=
  ∀ (s : State) (d : Draws) (i : InputSample), s.config.wf = true → s.halted = false →
    s.passInProgress = some ⟨d, .readOld1 i⟩ →
    let d1 := i.new1 ^^^ s.reg s.config.map.input1
    let d2 := i.new2 ^^^ s.reg s.config.map.input2
    let t := State.passRun (if d1 ||| d2 = 0#8 then 9 else 10) s
    t = { s with
      registers := t.registers, target := if d1 ||| d2 = 0#8 then s.target else true
      passInProgress := d.adc.map (fun x => ⟨d, .storeCharging x⟩), readData := none } ∧
    ∀ a, t.reg a =
      if a = s.config.map.interrupt1 then s.reg s.config.map.interrupt1 ||| d1
      else if a = s.config.map.interrupt2 then s.reg s.config.map.interrupt2 ||| d2
      else if a = s.config.map.input1 then i.new1
      else if a = s.config.map.input2 then i.new2
      else if a = s.config.map.gpioIn then i.gin
      else s.reg a

/-- R215, R72, with no engine step inside it: one channel is sampled into its little-endian pair, the charging bit is
refreshed, the index advances 0, 1, 2, 0, and the pass ends. The read-data return after the last store, none, is the
model's (log 10, DESIGN CHOICE). -/
def Obligations.AdcPollSamplesOneChannel : Prop :=
  ∀ (s : State) (d : Draws) (x : AdcSample), s.config.wf = true → s.halted = false →
    s.passInProgress = some ⟨d, .storeCharging x⟩ →
    let p := if s.nextChannel = 0 then s.config.map.adcVusb
      else if s.nextChannel = 1 then s.config.map.adcVbat else s.config.map.adcTemp
    let t := State.passRun 3 s
    t = { s with registers := t.registers, nextChannel := t.nextChannel, passInProgress := none, readData := none } ∧
    t.nextChannel.val = (s.nextChannel.val + 1) % 3 ∧ t.regPair p = x.sample ∧
    t.reg s.config.map.chargingState = (if x.charging then 0x01#8 else 0x00#8) ∧
    ∀ a, a ≠ p → a ≠ p + 1#8 → a ≠ s.config.map.chargingState → t.reg a = s.reg a

/-- R216, R217: where passes are atomic a pass is one step, and it ends. The step is the gate test and then the micro-steps
that an interleaved pass takes one by one, with nothing between them and none after the pass has ended or the run has
(at most 1040 of them, log 26). -/
def Obligations.AtomicPassEndsInOneStep : Prop :=
  ∀ (s : State) (d : Draws) (rest : List Turn), s.halted = false → s.config.passAtomicity = .atomic →
    s.passInProgress = none → s.schedule = .pass d :: rest →
    let gated : State :=
      if s.fsm = .idle then { s with schedule := rest, readData := some 0x00#8, passInProgress := some ⟨d, .line⟩ }
      else { s with schedule := rest, readData := some 0x01#8 }
    ∃ k, k ≤ 1040 ∧ step s = .next (State.passStep^[k] gated) ∧
      ((State.passStep^[k] gated).passInProgress = none ∨ (State.passStep^[k] gated).halted = true) ∧
      ∀ j, j < k → (State.passStep^[j] gated).passInProgress ≠ none ∧ (State.passStep^[j] gated).halted = false

/-! ## Protection -/

/-- R80: the `read_only` table is the only protection. An operation that is no bus write behaves the same under every
table; a bus write to a read-only address drops the byte (R252), and RECEIVE.DATA advances the cursor all the same (R162);
no operation changes the table. (The returns that are none are the model's, log 10, DESIGN CHOICE.) -/
def Obligations.ProtectionIsTheReadOnlyTableAlone : Prop :=
  (∀ (i : Instr) (s t : State) (table : BitTable), exec i s = .next t →
    (∀ b, i ≠ .receiveData b) → (∀ a v, i ≠ .regwr a v) → (i = .tWriteRx → s.writeInProgress = false) →
    exec i { s with readOnly := table } = .next { t with readOnly := table }) ∧
  (∀ (s : State) (a : Addr) (v : Byte), s.ro a = true →
    exec (.regwr a v) s = .next { s with readData := none }) ∧
  (∀ (s : State) (b : Byte), s.ro s.cursor = true →
    exec (.receiveData b) s = .next { s with cursor := s.cursor + 1#8, eventData := none }) ∧
  ∀ (i : Instr) (s t : State), exec i s = .next t → t.readOnly = s.readOnly

/-- R183: TIP returns `fsm != IDLE` and writes no state of the block; it returns false whenever the engine is not enabled,
in every state that meets the invariant. -/
def Obligations.TipReportsATransactionInProgress : Prop :=
  (∀ x : BitVec 16, decodeLocal (2#4 ++ x) = .ok .tip) ∧
  (∀ s : State, s.fsm ≠ .idle → exec .tip s = .next { s with readData := some 0x01#8 }) ∧
  (∀ s : State, s.fsm = .idle → exec .tip s = .next { s with readData := some 0x00#8 }) ∧
  ∀ s : State, s.Inv → s.enabled = false → exec .tip s = .next { s with readData := some 0x00#8 }
end

