-- ==== Sys2Proof/Laws/Decode.lean ====
section
/-! SUPPORT. What the decoder answers: it is total on format B, and each state's rows in the order of R105. -/

namespace Sys2Proof.Machine

/-- Every bit table over the two policies and the 128 selectors is checked by evaluation. -/
theorem forall_selector {P : CondPolicy → BitVec 7 → Prop}
    (h1 : ∀ w, P .priority w) (h2 : ∀ w, P .strict w) : ∀ p w, P p w
  | .priority, w => h1 w
  | .strict, w => h2 w

/-- Format B has no illegal selector (R110 (a)). -/
theorem decodeBranch_total (p : CondPolicy) (w : BitVec 7) : ∃ i, decodeBranch p w = .ok i := by
  have h : ∀ p w, (match decodeBranch p w with
      | .ok _ => true
      | .error _ => false) = true :=
    forall_selector (by decide) (by decide)
  have := h p w
  revert this
  cases decodeBranch p w with
  | ok i => exact fun _ => ⟨i, rfl⟩
  | error r => simp

/-- The five condition bits of the selector. -/
structure CondBits where
  ab : Bool
  sp : Bool
  rr : Bool
  rx : Bool
  sd : Bool
  deriving DecidableEq, Repr

/-- `COND` of its five bits (R103). -/
def CondBits.word (c : CondBits) : BitVec 5 :=
  BitVec.ofBool c.ab ++ BitVec.ofBool c.sp ++ BitVec.ofBool c.rr ++ BitVec.ofBool c.rx ++ BitVec.ofBool c.sd

/-- The condition bits of a state (R31). -/
def State.condBits (s : State) : CondBits := ⟨s.pend.ab, s.pend.sp, s.pend.rr, s.rx, s.pend.sd⟩

theorem State.selector_eq (s : State) : s.selector = s.fsm.code ++ s.condBits.word := rfl

/-- The branch of R105's step 2, written out: each state's tests in the source's listing order. -/
def CondBits.branch (c : CondBits) : Fsm → Instr
  | .idle => if c.sd then .tIdleStart else if c.ab then .tIdleAbort else .tIdleRecover
  | .start => if c.rx then .tStartWrite else if c.rr then .tStartRead else .tStartFault
  | .write =>
    if c.rx then .tWriteRx else if c.sp then .tWriteStop else if c.sd then .tWriteRestart
    else if c.rr then .tWriteRdreq else .tWriteRecover
  | .read => if c.rr then .tReadReq else if c.sp then .tReadStop else .tReadRecover

/-- R105's step 1: a condition the state does not handle is pending. -/
def CondBits.unhandled (c : CondBits) : Fsm → Bool
  | .idle => c.rx || c.rr || c.sp
  | .start => c.sd || c.sp || c.ab
  | .write => c.ab
  | .read => c.sd || c.rx || c.ab

/-- The recovery branch of a state. -/
def recoveryOf : Fsm → Instr
  | .idle => .tIdleRecover
  | .start => .tStartFault
  | .write => .tWriteRecover
  | .read => .tReadRecover

/-- R105 under `priority`. -/
theorem decodeBranch_priority (f : Fsm) (c : CondBits) :
    decodeBranch .priority (f.code ++ c.word) = .ok (c.branch f) := by
  rcases c with ⟨ab, sp, rr, rx, sd⟩
  cases f <;> cases ab <;> cases sp <;> cases rr <;> cases rx <;> cases sd <;> rfl

/-- R105 under `strict`. -/
theorem decodeBranch_strict (f : Fsm) (c : CondBits) :
    decodeBranch .strict (f.code ++ c.word) = .ok (if c.unhandled f then recoveryOf f else c.branch f) := by
  rcases c with ⟨ab, sp, rr, rx, sd⟩
  cases f <;> cases ab <;> cases sp <;> cases rr <;> cases rx <;> cases sd <;> rfl

/-- R105 under either policy: the recovery branch of the state, or the branch of the first handled condition. -/
theorem decodeBranch_state (s : State) :
    decodeBranch s.config.condPolicy s.selector =
      .ok (if s.config.condPolicy = .strict ∧ s.condBits.unhandled s.fsm then recoveryOf s.fsm
        else s.condBits.branch s.fsm) := by
  rw [State.selector_eq]
  cases h : s.config.condPolicy with
  | priority => rw [decodeBranch_priority]; simp
  | strict => rw [decodeBranch_strict]; simp

/-- `COND = 0` exactly when nothing is pending. -/
theorem State.cond_eq_zero_iff (s : State) :
    s.cond = 0#5 ↔ s.pend = ⟨false, false, false, false⟩ ∧ s.rxq = [] := by
  rcases s with ⟨_, _, _, _, _, _, _, _, _, _, _, _, ⟨sd, rr, sp, ab⟩, rxq, _, _, _, _, _, _, _, _, _⟩
  cases rxq <;> cases sd <;> cases rr <;> cases sp <;> cases ab <;>
    simp [State.cond, State.rx]

/-! ## The fields of an encoded word -/

@[simp] theorem localOpField_localWord (op : BitVec 4) (a v : BitVec 8) : localOpField (localWord op a v) = op := by
  apply BitVec.eq_of_getLsbD_eq
  intro k hk
  simp only [localOpField, localWord, BitVec.getLsbD_extractLsb', BitVec.getLsbD_append, hk, decide_true, Bool.true_and]
  have h1 : ¬ 16 + k < 8 := by omega
  have h2 : ¬ 16 + k - 8 < 8 := by omega
  simp only [h1, h2, if_false]
  congr 1
  omega

@[simp] theorem localAddrField_localWord (op : BitVec 4) (a v : BitVec 8) :
    localAddrField (localWord op a v) = a := by
  apply BitVec.eq_of_getLsbD_eq
  intro k hk
  simp only [localAddrField, localWord, BitVec.getLsbD_extractLsb', BitVec.getLsbD_append, hk, decide_true,
    Bool.true_and]
  have h1 : ¬ 8 + k < 8 := by omega
  have h2 : 8 + k - 8 < 8 := by omega
  simp only [h1, h2, if_false, if_true]
  congr 1
  omega

@[simp] theorem localValueField_localWord (op : BitVec 4) (a v : BitVec 8) :
    localValueField (localWord op a v) = v := by
  apply BitVec.eq_of_getLsbD_eq
  intro k hk
  simp only [localValueField, localWord, BitVec.getLsbD_extractLsb', BitVec.getLsbD_append, hk, decide_true,
    Bool.true_and]
  have h1 : 0 + k < 8 := by omega
  simp only [h1, if_true]
  congr 1
  omega

@[simp] theorem eventWord_data (ev : BitVec 2) (wip : Bool) (b : Byte) :
    (eventWord ev wip b).extractLsb' 0 8 = b := by
  apply BitVec.eq_of_getLsbD_eq
  intro k hk
  simp only [eventWord, BitVec.getLsbD_extractLsb', BitVec.getLsbD_append, hk, decide_true, Bool.true_and]
  have h1 : 0 + k < 8 := by omega
  simp only [h1, if_true]
  congr 1
  omega

/-- Masking an event word's three leading bits forgets the byte. -/
theorem eventWord_masked (ev : BitVec 2) (wip : Bool) (b : Byte) (m : BitVec 11) (hm : m &&& 0x0FF#11 = 0#11) :
    eventWord ev wip b &&& m = eventWord ev wip 0#8 &&& m := by
  apply BitVec.eq_of_getLsbD_eq
  intro k hk
  have hb : (m &&& 0x0FF#11).getLsbD k = false := by rw [hm]; simp
  simp only [eventWord, BitVec.getLsbD_and, BitVec.getLsbD_append] at hb ⊢
  by_cases h : k < 8
  · have h8 : (0x0FF#11).getLsbD k = true := by
      interval_cases k <;> rfl
    rw [h8, Bool.and_true] at hb
    simp [hb]
  · simp [h]

end Sys2Proof.Machine
end

