-- ==== Sys2Proof/Laws/State.lean ====
section
/-! SUPPORT. Each primitive update of the state, one lemma for each field, so that no proof unfolds an update. -/

/-! ## A configuration that gives an OPEN parameter a value (R11): that value is used -/

namespace Sys2Proof.Config

@[simp] theorem magicWord_some (c : Config) (w : BitVec 32) : ({ c with blMagic := some w } : Config).magicWord = w := rfl
@[simp] theorem irSentinelByte_some (c : Config) (b : Byte) :
    ({ c with irSentinel := some b } : Config).irSentinelByte = b := rfl
@[simp] theorem slotA_some (c : Config) (n : Nat) : ({ c with watchdogSlotA := some n } : Config).slotA = n := rfl
@[simp] theorem slotB_some (c : Config) (n : Nat) : ({ c with watchdogSlotB := some n } : Config).slotB = n := rfl

end Sys2Proof.Config

namespace Sys2Proof.Machine.State

variable (s : State)

/-! ## setReg -/

@[simp] theorem setReg_config (a : Addr) (v : Byte) : (s.setReg a v).config = s.config := rfl
@[simp] theorem setReg_registers (a : Addr) (v : Byte) : (s.setReg a v).registers = memWrite s.config.initRegs s.registers a.toNat v := rfl
@[simp] theorem setReg_readOnly (a : Addr) (v : Byte) : (s.setReg a v).readOnly = s.readOnly := rfl
@[simp] theorem setReg_modified (a : Addr) (v : Byte) : (s.setReg a v).modified = s.modified := rfl
@[simp] theorem setReg_cursor (a : Addr) (v : Byte) : (s.setReg a v).cursor = s.cursor := rfl
@[simp] theorem setReg_writeInProgress (a : Addr) (v : Byte) : (s.setReg a v).writeInProgress = s.writeInProgress := rfl
@[simp] theorem setReg_fsm (a : Addr) (v : Byte) : (s.setReg a v).fsm = s.fsm := rfl
@[simp] theorem setReg_target (a : Addr) (v : Byte) : (s.setReg a v).target = s.target := rfl
@[simp] theorem setReg_current (a : Addr) (v : Byte) : (s.setReg a v).current = s.current := rfl
@[simp] theorem setReg_clearPending (a : Addr) (v : Byte) : (s.setReg a v).clearPending = s.clearPending := rfl
@[simp] theorem setReg_enabled (a : Addr) (v : Byte) : (s.setReg a v).enabled = s.enabled := rfl
@[simp] theorem setReg_slaveAddr (a : Addr) (v : Byte) : (s.setReg a v).slaveAddr = s.slaveAddr := rfl
@[simp] theorem setReg_pend (a : Addr) (v : Byte) : (s.setReg a v).pend = s.pend := rfl
@[simp] theorem setReg_rxq (a : Addr) (v : Byte) : (s.setReg a v).rxq = s.rxq := rfl
@[simp] theorem setReg_txlog (a : Addr) (v : Byte) : (s.setReg a v).txlog = s.txlog := rfl
@[simp] theorem setReg_nextChannel (a : Addr) (v : Byte) : (s.setReg a v).nextChannel = s.nextChannel := rfl
@[simp] theorem setReg_halted (a : Addr) (v : Byte) : (s.setReg a v).halted = s.halted := rfl
@[simp] theorem setReg_passInProgress (a : Addr) (v : Byte) : (s.setReg a v).passInProgress = s.passInProgress := rfl
@[simp] theorem setReg_readData (a : Addr) (v : Byte) : (s.setReg a v).readData = s.readData := rfl
@[simp] theorem setReg_eventData (a : Addr) (v : Byte) : (s.setReg a v).eventData = s.eventData := rfl
@[simp] theorem setReg_emitted (a : Addr) (v : Byte) : (s.setReg a v).emitted = s.emitted := rfl
@[simp] theorem setReg_recoveries (a : Addr) (v : Byte) : (s.setReg a v).recoveries = s.recoveries := rfl
@[simp] theorem setReg_schedule (a : Addr) (v : Byte) : (s.setReg a v).schedule = s.schedule := rfl

/-! ## setDirty -/

@[simp] theorem setDirty_config (a : Addr) : (s.setDirty a).config = s.config := rfl
@[simp] theorem setDirty_registers (a : Addr) : (s.setDirty a).registers = s.registers := rfl
@[simp] theorem setDirty_readOnly (a : Addr) : (s.setDirty a).readOnly = s.readOnly := rfl
@[simp] theorem setDirty_modified (a : Addr) : (s.setDirty a).modified = s.modified ||| BitVec.twoPow 256 a.toNat := rfl
@[simp] theorem setDirty_cursor (a : Addr) : (s.setDirty a).cursor = s.cursor := rfl
@[simp] theorem setDirty_writeInProgress (a : Addr) : (s.setDirty a).writeInProgress = s.writeInProgress := rfl
@[simp] theorem setDirty_fsm (a : Addr) : (s.setDirty a).fsm = s.fsm := rfl
@[simp] theorem setDirty_target (a : Addr) : (s.setDirty a).target = s.target := rfl
@[simp] theorem setDirty_current (a : Addr) : (s.setDirty a).current = s.current := rfl
@[simp] theorem setDirty_clearPending (a : Addr) : (s.setDirty a).clearPending = s.clearPending := rfl
@[simp] theorem setDirty_enabled (a : Addr) : (s.setDirty a).enabled = s.enabled := rfl
@[simp] theorem setDirty_slaveAddr (a : Addr) : (s.setDirty a).slaveAddr = s.slaveAddr := rfl
@[simp] theorem setDirty_pend (a : Addr) : (s.setDirty a).pend = s.pend := rfl
@[simp] theorem setDirty_rxq (a : Addr) : (s.setDirty a).rxq = s.rxq := rfl
@[simp] theorem setDirty_txlog (a : Addr) : (s.setDirty a).txlog = s.txlog := rfl
@[simp] theorem setDirty_nextChannel (a : Addr) : (s.setDirty a).nextChannel = s.nextChannel := rfl
@[simp] theorem setDirty_halted (a : Addr) : (s.setDirty a).halted = s.halted := rfl
@[simp] theorem setDirty_passInProgress (a : Addr) : (s.setDirty a).passInProgress = s.passInProgress := rfl
@[simp] theorem setDirty_readData (a : Addr) : (s.setDirty a).readData = s.readData := rfl
@[simp] theorem setDirty_eventData (a : Addr) : (s.setDirty a).eventData = s.eventData := rfl
@[simp] theorem setDirty_emitted (a : Addr) : (s.setDirty a).emitted = s.emitted := rfl
@[simp] theorem setDirty_recoveries (a : Addr) : (s.setDirty a).recoveries = s.recoveries := rfl
@[simp] theorem setDirty_schedule (a : Addr) : (s.setDirty a).schedule = s.schedule := rfl

/-! ## clearDirty -/

@[simp] theorem clearDirty_config (a : Addr) : (s.clearDirty a).config = s.config := rfl
@[simp] theorem clearDirty_registers (a : Addr) : (s.clearDirty a).registers = s.registers := rfl
@[simp] theorem clearDirty_readOnly (a : Addr) : (s.clearDirty a).readOnly = s.readOnly := rfl
@[simp] theorem clearDirty_modified (a : Addr) : (s.clearDirty a).modified = s.modified &&& ~~~(BitVec.twoPow 256 a.toNat) := rfl
@[simp] theorem clearDirty_cursor (a : Addr) : (s.clearDirty a).cursor = s.cursor := rfl
@[simp] theorem clearDirty_writeInProgress (a : Addr) : (s.clearDirty a).writeInProgress = s.writeInProgress := rfl
@[simp] theorem clearDirty_fsm (a : Addr) : (s.clearDirty a).fsm = s.fsm := rfl
@[simp] theorem clearDirty_target (a : Addr) : (s.clearDirty a).target = s.target := rfl
@[simp] theorem clearDirty_current (a : Addr) : (s.clearDirty a).current = s.current := rfl
@[simp] theorem clearDirty_clearPending (a : Addr) : (s.clearDirty a).clearPending = s.clearPending := rfl
@[simp] theorem clearDirty_enabled (a : Addr) : (s.clearDirty a).enabled = s.enabled := rfl
@[simp] theorem clearDirty_slaveAddr (a : Addr) : (s.clearDirty a).slaveAddr = s.slaveAddr := rfl
@[simp] theorem clearDirty_pend (a : Addr) : (s.clearDirty a).pend = s.pend := rfl
@[simp] theorem clearDirty_rxq (a : Addr) : (s.clearDirty a).rxq = s.rxq := rfl
@[simp] theorem clearDirty_txlog (a : Addr) : (s.clearDirty a).txlog = s.txlog := rfl
@[simp] theorem clearDirty_nextChannel (a : Addr) : (s.clearDirty a).nextChannel = s.nextChannel := rfl
@[simp] theorem clearDirty_halted (a : Addr) : (s.clearDirty a).halted = s.halted := rfl
@[simp] theorem clearDirty_passInProgress (a : Addr) : (s.clearDirty a).passInProgress = s.passInProgress := rfl
@[simp] theorem clearDirty_readData (a : Addr) : (s.clearDirty a).readData = s.readData := rfl
@[simp] theorem clearDirty_eventData (a : Addr) : (s.clearDirty a).eventData = s.eventData := rfl
@[simp] theorem clearDirty_emitted (a : Addr) : (s.clearDirty a).emitted = s.emitted := rfl
@[simp] theorem clearDirty_recoveries (a : Addr) : (s.clearDirty a).recoveries = s.recoveries := rfl
@[simp] theorem clearDirty_schedule (a : Addr) : (s.clearDirty a).schedule = s.schedule := rfl

/-! ## setWip -/

@[simp] theorem setWip_config (b : Bool) : (s.setWip b).config = s.config := rfl
@[simp] theorem setWip_registers (b : Bool) : (s.setWip b).registers = s.registers := rfl
@[simp] theorem setWip_readOnly (b : Bool) : (s.setWip b).readOnly = s.readOnly := rfl
@[simp] theorem setWip_modified (b : Bool) : (s.setWip b).modified = s.modified := rfl
@[simp] theorem setWip_cursor (b : Bool) : (s.setWip b).cursor = s.cursor := rfl
@[simp] theorem setWip_writeInProgress (b : Bool) : (s.setWip b).writeInProgress = b := rfl
@[simp] theorem setWip_fsm (b : Bool) : (s.setWip b).fsm = s.fsm := rfl
@[simp] theorem setWip_target (b : Bool) : (s.setWip b).target = s.target := rfl
@[simp] theorem setWip_current (b : Bool) : (s.setWip b).current = s.current := rfl
@[simp] theorem setWip_clearPending (b : Bool) : (s.setWip b).clearPending = s.clearPending := rfl
@[simp] theorem setWip_enabled (b : Bool) : (s.setWip b).enabled = s.enabled := rfl
@[simp] theorem setWip_slaveAddr (b : Bool) : (s.setWip b).slaveAddr = s.slaveAddr := rfl
@[simp] theorem setWip_pend (b : Bool) : (s.setWip b).pend = s.pend := rfl
@[simp] theorem setWip_rxq (b : Bool) : (s.setWip b).rxq = s.rxq := rfl
@[simp] theorem setWip_txlog (b : Bool) : (s.setWip b).txlog = s.txlog := rfl
@[simp] theorem setWip_nextChannel (b : Bool) : (s.setWip b).nextChannel = s.nextChannel := rfl
@[simp] theorem setWip_halted (b : Bool) : (s.setWip b).halted = s.halted := rfl
@[simp] theorem setWip_passInProgress (b : Bool) : (s.setWip b).passInProgress = s.passInProgress := rfl
@[simp] theorem setWip_readData (b : Bool) : (s.setWip b).readData = s.readData := rfl
@[simp] theorem setWip_eventData (b : Bool) : (s.setWip b).eventData = s.eventData := rfl
@[simp] theorem setWip_emitted (b : Bool) : (s.setWip b).emitted = s.emitted := rfl
@[simp] theorem setWip_recoveries (b : Bool) : (s.setWip b).recoveries = s.recoveries := rfl
@[simp] theorem setWip_schedule (b : Bool) : (s.setWip b).schedule = s.schedule := rfl

/-! ## clear -/

@[simp] theorem clear_config (c : Latched) : (s.clear c).config = s.config := rfl
@[simp] theorem clear_registers (c : Latched) : (s.clear c).registers = s.registers := rfl
@[simp] theorem clear_readOnly (c : Latched) : (s.clear c).readOnly = s.readOnly := rfl
@[simp] theorem clear_modified (c : Latched) : (s.clear c).modified = s.modified := rfl
@[simp] theorem clear_cursor (c : Latched) : (s.clear c).cursor = s.cursor := rfl
@[simp] theorem clear_writeInProgress (c : Latched) : (s.clear c).writeInProgress = s.writeInProgress := rfl
@[simp] theorem clear_fsm (c : Latched) : (s.clear c).fsm = s.fsm := rfl
@[simp] theorem clear_target (c : Latched) : (s.clear c).target = s.target := rfl
@[simp] theorem clear_current (c : Latched) : (s.clear c).current = s.current := rfl
@[simp] theorem clear_clearPending (c : Latched) : (s.clear c).clearPending = s.clearPending := rfl
@[simp] theorem clear_enabled (c : Latched) : (s.clear c).enabled = s.enabled := rfl
@[simp] theorem clear_slaveAddr (c : Latched) : (s.clear c).slaveAddr = s.slaveAddr := rfl
@[simp] theorem clear_pend (c : Latched) : (s.clear c).pend = s.pend.drop c := rfl
@[simp] theorem clear_rxq (c : Latched) : (s.clear c).rxq = s.rxq := rfl
@[simp] theorem clear_txlog (c : Latched) : (s.clear c).txlog = s.txlog := rfl
@[simp] theorem clear_nextChannel (c : Latched) : (s.clear c).nextChannel = s.nextChannel := rfl
@[simp] theorem clear_halted (c : Latched) : (s.clear c).halted = s.halted := rfl
@[simp] theorem clear_passInProgress (c : Latched) : (s.clear c).passInProgress = s.passInProgress := rfl
@[simp] theorem clear_readData (c : Latched) : (s.clear c).readData = s.readData := rfl
@[simp] theorem clear_eventData (c : Latched) : (s.clear c).eventData = s.eventData := rfl
@[simp] theorem clear_emitted (c : Latched) : (s.clear c).emitted = s.emitted := rfl
@[simp] theorem clear_recoveries (c : Latched) : (s.clear c).recoveries = s.recoveries := rfl
@[simp] theorem clear_schedule (c : Latched) : (s.clear c).schedule = s.schedule := rfl

/-! ## envRaise -/

@[simp] theorem envRaise_config (c : Latched) : (s.envRaise c).config = s.config := rfl
@[simp] theorem envRaise_registers (c : Latched) : (s.envRaise c).registers = s.registers := rfl
@[simp] theorem envRaise_readOnly (c : Latched) : (s.envRaise c).readOnly = s.readOnly := rfl
@[simp] theorem envRaise_modified (c : Latched) : (s.envRaise c).modified = s.modified := rfl
@[simp] theorem envRaise_cursor (c : Latched) : (s.envRaise c).cursor = s.cursor := rfl
@[simp] theorem envRaise_writeInProgress (c : Latched) : (s.envRaise c).writeInProgress = s.writeInProgress := rfl
@[simp] theorem envRaise_fsm (c : Latched) : (s.envRaise c).fsm = s.fsm := rfl
@[simp] theorem envRaise_target (c : Latched) : (s.envRaise c).target = s.target := rfl
@[simp] theorem envRaise_current (c : Latched) : (s.envRaise c).current = s.current := rfl
@[simp] theorem envRaise_clearPending (c : Latched) : (s.envRaise c).clearPending = s.clearPending := rfl
@[simp] theorem envRaise_enabled (c : Latched) : (s.envRaise c).enabled = s.enabled := rfl
@[simp] theorem envRaise_slaveAddr (c : Latched) : (s.envRaise c).slaveAddr = s.slaveAddr := rfl
@[simp] theorem envRaise_pend (c : Latched) : (s.envRaise c).pend = s.pend.add c := rfl
@[simp] theorem envRaise_rxq (c : Latched) : (s.envRaise c).rxq = s.rxq := rfl
@[simp] theorem envRaise_txlog (c : Latched) : (s.envRaise c).txlog = s.txlog := rfl
@[simp] theorem envRaise_nextChannel (c : Latched) : (s.envRaise c).nextChannel = s.nextChannel := rfl
@[simp] theorem envRaise_halted (c : Latched) : (s.envRaise c).halted = s.halted := rfl
@[simp] theorem envRaise_passInProgress (c : Latched) : (s.envRaise c).passInProgress = s.passInProgress := rfl
@[simp] theorem envRaise_readData (c : Latched) : (s.envRaise c).readData = s.readData := rfl
@[simp] theorem envRaise_eventData (c : Latched) : (s.envRaise c).eventData = s.eventData := rfl
@[simp] theorem envRaise_emitted (c : Latched) : (s.envRaise c).emitted = s.emitted := rfl
@[simp] theorem envRaise_recoveries (c : Latched) : (s.envRaise c).recoveries = s.recoveries := rfl
@[simp] theorem envRaise_schedule (c : Latched) : (s.envRaise c).schedule = s.schedule := rfl

/-! ## envPush -/

@[simp] theorem envPush_config (b : Byte) : (s.envPush b).config = s.config := rfl
@[simp] theorem envPush_registers (b : Byte) : (s.envPush b).registers = s.registers := rfl
@[simp] theorem envPush_readOnly (b : Byte) : (s.envPush b).readOnly = s.readOnly := rfl
@[simp] theorem envPush_modified (b : Byte) : (s.envPush b).modified = s.modified := rfl
@[simp] theorem envPush_cursor (b : Byte) : (s.envPush b).cursor = s.cursor := rfl
@[simp] theorem envPush_writeInProgress (b : Byte) : (s.envPush b).writeInProgress = s.writeInProgress := rfl
@[simp] theorem envPush_fsm (b : Byte) : (s.envPush b).fsm = s.fsm := rfl
@[simp] theorem envPush_target (b : Byte) : (s.envPush b).target = s.target := rfl
@[simp] theorem envPush_current (b : Byte) : (s.envPush b).current = s.current := rfl
@[simp] theorem envPush_clearPending (b : Byte) : (s.envPush b).clearPending = s.clearPending := rfl
@[simp] theorem envPush_enabled (b : Byte) : (s.envPush b).enabled = s.enabled := rfl
@[simp] theorem envPush_slaveAddr (b : Byte) : (s.envPush b).slaveAddr = s.slaveAddr := rfl
@[simp] theorem envPush_pend (b : Byte) : (s.envPush b).pend = s.pend := rfl
@[simp] theorem envPush_rxq (b : Byte) : (s.envPush b).rxq = s.rxq ++ [b] := rfl
@[simp] theorem envPush_txlog (b : Byte) : (s.envPush b).txlog = s.txlog := rfl
@[simp] theorem envPush_nextChannel (b : Byte) : (s.envPush b).nextChannel = s.nextChannel := rfl
@[simp] theorem envPush_halted (b : Byte) : (s.envPush b).halted = s.halted := rfl
@[simp] theorem envPush_passInProgress (b : Byte) : (s.envPush b).passInProgress = s.passInProgress := rfl
@[simp] theorem envPush_readData (b : Byte) : (s.envPush b).readData = s.readData := rfl
@[simp] theorem envPush_eventData (b : Byte) : (s.envPush b).eventData = s.eventData := rfl
@[simp] theorem envPush_emitted (b : Byte) : (s.envPush b).emitted = s.emitted := rfl
@[simp] theorem envPush_recoveries (b : Byte) : (s.envPush b).recoveries = s.recoveries := rfl
@[simp] theorem envPush_schedule (b : Byte) : (s.envPush b).schedule = s.schedule := rfl

/-! ## rxDrop -/

@[simp] theorem rxDrop_config : (s.rxDrop).config = s.config := rfl
@[simp] theorem rxDrop_registers : (s.rxDrop).registers = s.registers := rfl
@[simp] theorem rxDrop_readOnly : (s.rxDrop).readOnly = s.readOnly := rfl
@[simp] theorem rxDrop_modified : (s.rxDrop).modified = s.modified := rfl
@[simp] theorem rxDrop_cursor : (s.rxDrop).cursor = s.cursor := rfl
@[simp] theorem rxDrop_writeInProgress : (s.rxDrop).writeInProgress = s.writeInProgress := rfl
@[simp] theorem rxDrop_fsm : (s.rxDrop).fsm = s.fsm := rfl
@[simp] theorem rxDrop_target : (s.rxDrop).target = s.target := rfl
@[simp] theorem rxDrop_current : (s.rxDrop).current = s.current := rfl
@[simp] theorem rxDrop_clearPending : (s.rxDrop).clearPending = s.clearPending := rfl
@[simp] theorem rxDrop_enabled : (s.rxDrop).enabled = s.enabled := rfl
@[simp] theorem rxDrop_slaveAddr : (s.rxDrop).slaveAddr = s.slaveAddr := rfl
@[simp] theorem rxDrop_pend : (s.rxDrop).pend = s.pend := rfl
@[simp] theorem rxDrop_rxq : (s.rxDrop).rxq = s.rxq.tail := rfl
@[simp] theorem rxDrop_txlog : (s.rxDrop).txlog = s.txlog := rfl
@[simp] theorem rxDrop_nextChannel : (s.rxDrop).nextChannel = s.nextChannel := rfl
@[simp] theorem rxDrop_halted : (s.rxDrop).halted = s.halted := rfl
@[simp] theorem rxDrop_passInProgress : (s.rxDrop).passInProgress = s.passInProgress := rfl
@[simp] theorem rxDrop_readData : (s.rxDrop).readData = s.readData := rfl
@[simp] theorem rxDrop_eventData : (s.rxDrop).eventData = s.eventData := rfl
@[simp] theorem rxDrop_emitted : (s.rxDrop).emitted = s.emitted := rfl
@[simp] theorem rxDrop_recoveries : (s.rxDrop).recoveries = s.recoveries := rfl
@[simp] theorem rxDrop_schedule : (s.rxDrop).schedule = s.schedule := rfl

/-! ## txPush -/

@[simp] theorem txPush_config (b : Byte) : (s.txPush b).config = s.config := rfl
@[simp] theorem txPush_registers (b : Byte) : (s.txPush b).registers = s.registers := rfl
@[simp] theorem txPush_readOnly (b : Byte) : (s.txPush b).readOnly = s.readOnly := rfl
@[simp] theorem txPush_modified (b : Byte) : (s.txPush b).modified = s.modified := rfl
@[simp] theorem txPush_cursor (b : Byte) : (s.txPush b).cursor = s.cursor := rfl
@[simp] theorem txPush_writeInProgress (b : Byte) : (s.txPush b).writeInProgress = s.writeInProgress := rfl
@[simp] theorem txPush_fsm (b : Byte) : (s.txPush b).fsm = s.fsm := rfl
@[simp] theorem txPush_target (b : Byte) : (s.txPush b).target = s.target := rfl
@[simp] theorem txPush_current (b : Byte) : (s.txPush b).current = s.current := rfl
@[simp] theorem txPush_clearPending (b : Byte) : (s.txPush b).clearPending = s.clearPending := rfl
@[simp] theorem txPush_enabled (b : Byte) : (s.txPush b).enabled = s.enabled := rfl
@[simp] theorem txPush_slaveAddr (b : Byte) : (s.txPush b).slaveAddr = s.slaveAddr := rfl
@[simp] theorem txPush_pend (b : Byte) : (s.txPush b).pend = s.pend.drop .rr := rfl
@[simp] theorem txPush_rxq (b : Byte) : (s.txPush b).rxq = s.rxq := rfl
@[simp] theorem txPush_txlog (b : Byte) : (s.txPush b).txlog = s.txlog ++ [b] := rfl
@[simp] theorem txPush_nextChannel (b : Byte) : (s.txPush b).nextChannel = s.nextChannel := rfl
@[simp] theorem txPush_halted (b : Byte) : (s.txPush b).halted = s.halted := rfl
@[simp] theorem txPush_passInProgress (b : Byte) : (s.txPush b).passInProgress = s.passInProgress := rfl
@[simp] theorem txPush_readData (b : Byte) : (s.txPush b).readData = s.readData := rfl
@[simp] theorem txPush_eventData (b : Byte) : (s.txPush b).eventData = s.eventData := rfl
@[simp] theorem txPush_emitted (b : Byte) : (s.txPush b).emitted = s.emitted := rfl
@[simp] theorem txPush_recoveries (b : Byte) : (s.txPush b).recoveries = s.recoveries := rfl
@[simp] theorem txPush_schedule (b : Byte) : (s.txPush b).schedule = s.schedule := rfl

/-! ## setFsm -/

@[simp] theorem setFsm_config (f : Fsm) : (s.setFsm f).config = s.config := rfl
@[simp] theorem setFsm_registers (f : Fsm) : (s.setFsm f).registers = s.registers := rfl
@[simp] theorem setFsm_readOnly (f : Fsm) : (s.setFsm f).readOnly = s.readOnly := rfl
@[simp] theorem setFsm_modified (f : Fsm) : (s.setFsm f).modified = s.modified := rfl
@[simp] theorem setFsm_cursor (f : Fsm) : (s.setFsm f).cursor = s.cursor := rfl
@[simp] theorem setFsm_writeInProgress (f : Fsm) : (s.setFsm f).writeInProgress = s.writeInProgress := rfl
@[simp] theorem setFsm_fsm (f : Fsm) : (s.setFsm f).fsm = f := rfl
@[simp] theorem setFsm_target (f : Fsm) : (s.setFsm f).target = s.target := rfl
@[simp] theorem setFsm_current (f : Fsm) : (s.setFsm f).current = s.current := rfl
@[simp] theorem setFsm_clearPending (f : Fsm) : (s.setFsm f).clearPending = s.clearPending := rfl
@[simp] theorem setFsm_enabled (f : Fsm) : (s.setFsm f).enabled = s.enabled := rfl
@[simp] theorem setFsm_slaveAddr (f : Fsm) : (s.setFsm f).slaveAddr = s.slaveAddr := rfl
@[simp] theorem setFsm_pend (f : Fsm) : (s.setFsm f).pend = s.pend := rfl
@[simp] theorem setFsm_rxq (f : Fsm) : (s.setFsm f).rxq = s.rxq := rfl
@[simp] theorem setFsm_txlog (f : Fsm) : (s.setFsm f).txlog = s.txlog := rfl
@[simp] theorem setFsm_nextChannel (f : Fsm) : (s.setFsm f).nextChannel = s.nextChannel := rfl
@[simp] theorem setFsm_halted (f : Fsm) : (s.setFsm f).halted = s.halted := rfl
@[simp] theorem setFsm_passInProgress (f : Fsm) : (s.setFsm f).passInProgress = s.passInProgress := rfl
@[simp] theorem setFsm_readData (f : Fsm) : (s.setFsm f).readData = s.readData := rfl
@[simp] theorem setFsm_eventData (f : Fsm) : (s.setFsm f).eventData = s.eventData := rfl
@[simp] theorem setFsm_emitted (f : Fsm) : (s.setFsm f).emitted = s.emitted := rfl
@[simp] theorem setFsm_recoveries (f : Fsm) : (s.setFsm f).recoveries = s.recoveries := rfl
@[simp] theorem setFsm_schedule (f : Fsm) : (s.setFsm f).schedule = s.schedule := rfl

/-! ## emit -/

@[simp] theorem emit_config (es : List Output) : (s.emit es).config = s.config := rfl
@[simp] theorem emit_registers (es : List Output) : (s.emit es).registers = s.registers := rfl
@[simp] theorem emit_readOnly (es : List Output) : (s.emit es).readOnly = s.readOnly := rfl
@[simp] theorem emit_modified (es : List Output) : (s.emit es).modified = s.modified := rfl
@[simp] theorem emit_cursor (es : List Output) : (s.emit es).cursor = s.cursor := rfl
@[simp] theorem emit_writeInProgress (es : List Output) : (s.emit es).writeInProgress = s.writeInProgress := rfl
@[simp] theorem emit_fsm (es : List Output) : (s.emit es).fsm = s.fsm := rfl
@[simp] theorem emit_target (es : List Output) : (s.emit es).target = s.target := rfl
@[simp] theorem emit_current (es : List Output) : (s.emit es).current = s.current := rfl
@[simp] theorem emit_clearPending (es : List Output) : (s.emit es).clearPending = s.clearPending := rfl
@[simp] theorem emit_enabled (es : List Output) : (s.emit es).enabled = s.enabled := rfl
@[simp] theorem emit_slaveAddr (es : List Output) : (s.emit es).slaveAddr = s.slaveAddr := rfl
@[simp] theorem emit_pend (es : List Output) : (s.emit es).pend = s.pend := rfl
@[simp] theorem emit_rxq (es : List Output) : (s.emit es).rxq = s.rxq := rfl
@[simp] theorem emit_txlog (es : List Output) : (s.emit es).txlog = s.txlog := rfl
@[simp] theorem emit_nextChannel (es : List Output) : (s.emit es).nextChannel = s.nextChannel := rfl
@[simp] theorem emit_halted (es : List Output) : (s.emit es).halted = s.halted := rfl
@[simp] theorem emit_passInProgress (es : List Output) : (s.emit es).passInProgress = s.passInProgress := rfl
@[simp] theorem emit_readData (es : List Output) : (s.emit es).readData = s.readData := rfl
@[simp] theorem emit_eventData (es : List Output) : (s.emit es).eventData = s.eventData := rfl
@[simp] theorem emit_emitted (es : List Output) : (s.emit es).emitted = s.emitted ++ es := rfl
@[simp] theorem emit_recoveries (es : List Output) : (s.emit es).recoveries = s.recoveries := rfl
@[simp] theorem emit_schedule (es : List Output) : (s.emit es).schedule = s.schedule := rfl

/-! ## setReadData -/

@[simp] theorem setReadData_config (r : Option Byte) : (s.setReadData r).config = s.config := rfl
@[simp] theorem setReadData_registers (r : Option Byte) : (s.setReadData r).registers = s.registers := rfl
@[simp] theorem setReadData_readOnly (r : Option Byte) : (s.setReadData r).readOnly = s.readOnly := rfl
@[simp] theorem setReadData_modified (r : Option Byte) : (s.setReadData r).modified = s.modified := rfl
@[simp] theorem setReadData_cursor (r : Option Byte) : (s.setReadData r).cursor = s.cursor := rfl
@[simp] theorem setReadData_writeInProgress (r : Option Byte) : (s.setReadData r).writeInProgress = s.writeInProgress := rfl
@[simp] theorem setReadData_fsm (r : Option Byte) : (s.setReadData r).fsm = s.fsm := rfl
@[simp] theorem setReadData_target (r : Option Byte) : (s.setReadData r).target = s.target := rfl
@[simp] theorem setReadData_current (r : Option Byte) : (s.setReadData r).current = s.current := rfl
@[simp] theorem setReadData_clearPending (r : Option Byte) : (s.setReadData r).clearPending = s.clearPending := rfl
@[simp] theorem setReadData_enabled (r : Option Byte) : (s.setReadData r).enabled = s.enabled := rfl
@[simp] theorem setReadData_slaveAddr (r : Option Byte) : (s.setReadData r).slaveAddr = s.slaveAddr := rfl
@[simp] theorem setReadData_pend (r : Option Byte) : (s.setReadData r).pend = s.pend := rfl
@[simp] theorem setReadData_rxq (r : Option Byte) : (s.setReadData r).rxq = s.rxq := rfl
@[simp] theorem setReadData_txlog (r : Option Byte) : (s.setReadData r).txlog = s.txlog := rfl
@[simp] theorem setReadData_nextChannel (r : Option Byte) : (s.setReadData r).nextChannel = s.nextChannel := rfl
@[simp] theorem setReadData_halted (r : Option Byte) : (s.setReadData r).halted = s.halted := rfl
@[simp] theorem setReadData_passInProgress (r : Option Byte) : (s.setReadData r).passInProgress = s.passInProgress := rfl
@[simp] theorem setReadData_readData (r : Option Byte) : (s.setReadData r).readData = r := rfl
@[simp] theorem setReadData_eventData (r : Option Byte) : (s.setReadData r).eventData = s.eventData := rfl
@[simp] theorem setReadData_emitted (r : Option Byte) : (s.setReadData r).emitted = s.emitted := rfl
@[simp] theorem setReadData_recoveries (r : Option Byte) : (s.setReadData r).recoveries = s.recoveries := rfl
@[simp] theorem setReadData_schedule (r : Option Byte) : (s.setReadData r).schedule = s.schedule := rfl

/-! ## setEventData -/

@[simp] theorem setEventData_config (r : Option Byte) : (s.setEventData r).config = s.config := rfl
@[simp] theorem setEventData_registers (r : Option Byte) : (s.setEventData r).registers = s.registers := rfl
@[simp] theorem setEventData_readOnly (r : Option Byte) : (s.setEventData r).readOnly = s.readOnly := rfl
@[simp] theorem setEventData_modified (r : Option Byte) : (s.setEventData r).modified = s.modified := rfl
@[simp] theorem setEventData_cursor (r : Option Byte) : (s.setEventData r).cursor = s.cursor := rfl
@[simp] theorem setEventData_writeInProgress (r : Option Byte) : (s.setEventData r).writeInProgress = s.writeInProgress := rfl
@[simp] theorem setEventData_fsm (r : Option Byte) : (s.setEventData r).fsm = s.fsm := rfl
@[simp] theorem setEventData_target (r : Option Byte) : (s.setEventData r).target = s.target := rfl
@[simp] theorem setEventData_current (r : Option Byte) : (s.setEventData r).current = s.current := rfl
@[simp] theorem setEventData_clearPending (r : Option Byte) : (s.setEventData r).clearPending = s.clearPending := rfl
@[simp] theorem setEventData_enabled (r : Option Byte) : (s.setEventData r).enabled = s.enabled := rfl
@[simp] theorem setEventData_slaveAddr (r : Option Byte) : (s.setEventData r).slaveAddr = s.slaveAddr := rfl
@[simp] theorem setEventData_pend (r : Option Byte) : (s.setEventData r).pend = s.pend := rfl
@[simp] theorem setEventData_rxq (r : Option Byte) : (s.setEventData r).rxq = s.rxq := rfl
@[simp] theorem setEventData_txlog (r : Option Byte) : (s.setEventData r).txlog = s.txlog := rfl
@[simp] theorem setEventData_nextChannel (r : Option Byte) : (s.setEventData r).nextChannel = s.nextChannel := rfl
@[simp] theorem setEventData_halted (r : Option Byte) : (s.setEventData r).halted = s.halted := rfl
@[simp] theorem setEventData_passInProgress (r : Option Byte) : (s.setEventData r).passInProgress = s.passInProgress := rfl
@[simp] theorem setEventData_readData (r : Option Byte) : (s.setEventData r).readData = s.readData := rfl
@[simp] theorem setEventData_eventData (r : Option Byte) : (s.setEventData r).eventData = r := rfl
@[simp] theorem setEventData_emitted (r : Option Byte) : (s.setEventData r).emitted = s.emitted := rfl
@[simp] theorem setEventData_recoveries (r : Option Byte) : (s.setEventData r).recoveries = s.recoveries := rfl
@[simp] theorem setEventData_schedule (r : Option Byte) : (s.setEventData r).schedule = s.schedule := rfl

/-! ## goTo -/

@[simp] theorem goTo_config (d : Draws) (n : Option PassPoint) : (s.goTo d n).config = s.config := rfl
@[simp] theorem goTo_registers (d : Draws) (n : Option PassPoint) : (s.goTo d n).registers = s.registers := rfl
@[simp] theorem goTo_readOnly (d : Draws) (n : Option PassPoint) : (s.goTo d n).readOnly = s.readOnly := rfl
@[simp] theorem goTo_modified (d : Draws) (n : Option PassPoint) : (s.goTo d n).modified = s.modified := rfl
@[simp] theorem goTo_cursor (d : Draws) (n : Option PassPoint) : (s.goTo d n).cursor = s.cursor := rfl
@[simp] theorem goTo_writeInProgress (d : Draws) (n : Option PassPoint) : (s.goTo d n).writeInProgress = s.writeInProgress := rfl
@[simp] theorem goTo_fsm (d : Draws) (n : Option PassPoint) : (s.goTo d n).fsm = s.fsm := rfl
@[simp] theorem goTo_target (d : Draws) (n : Option PassPoint) : (s.goTo d n).target = s.target := rfl
@[simp] theorem goTo_current (d : Draws) (n : Option PassPoint) : (s.goTo d n).current = s.current := rfl
@[simp] theorem goTo_clearPending (d : Draws) (n : Option PassPoint) : (s.goTo d n).clearPending = s.clearPending := rfl
@[simp] theorem goTo_enabled (d : Draws) (n : Option PassPoint) : (s.goTo d n).enabled = s.enabled := rfl
@[simp] theorem goTo_slaveAddr (d : Draws) (n : Option PassPoint) : (s.goTo d n).slaveAddr = s.slaveAddr := rfl
@[simp] theorem goTo_pend (d : Draws) (n : Option PassPoint) : (s.goTo d n).pend = s.pend := rfl
@[simp] theorem goTo_rxq (d : Draws) (n : Option PassPoint) : (s.goTo d n).rxq = s.rxq := rfl
@[simp] theorem goTo_txlog (d : Draws) (n : Option PassPoint) : (s.goTo d n).txlog = s.txlog := rfl
@[simp] theorem goTo_nextChannel (d : Draws) (n : Option PassPoint) : (s.goTo d n).nextChannel = s.nextChannel := rfl
@[simp] theorem goTo_halted (d : Draws) (n : Option PassPoint) : (s.goTo d n).halted = s.halted := rfl
@[simp] theorem goTo_passInProgress (d : Draws) (n : Option PassPoint) : (s.goTo d n).passInProgress = n.map (fun p => ⟨d, p⟩) := rfl
@[simp] theorem goTo_readData (d : Draws) (n : Option PassPoint) : (s.goTo d n).readData = s.readData := rfl
@[simp] theorem goTo_eventData (d : Draws) (n : Option PassPoint) : (s.goTo d n).eventData = s.eventData := rfl
@[simp] theorem goTo_emitted (d : Draws) (n : Option PassPoint) : (s.goTo d n).emitted = s.emitted := rfl
@[simp] theorem goTo_recoveries (d : Draws) (n : Option PassPoint) : (s.goTo d n).recoveries = s.recoveries := rfl
@[simp] theorem goTo_schedule (d : Draws) (n : Option PassPoint) : (s.goTo d n).schedule = s.schedule := rfl

end Sys2Proof.Machine.State
end

