-- ==== Sys2Proof/Laws/Memory.lean ====
section
/-! SUPPORT. The laws of the register file: read after write, and that every operation keeps the canonical form. -/

namespace Sys2Proof.Machine

theorem cellsFind_cellsPut (m : List Host.Cell) (a : Nat) (v : Byte) (b : Nat) :
    cellsFind (cellsPut m a v) b = if b = a then some v else cellsFind m b := by
  induction m with
  | nil => simp [cellsPut, cellsFind, eq_comm]
  | cons c rest ih =>
    obtain ⟨k, x⟩ := c
    simp only [cellsPut]
    split
    · by_cases h : b = a <;> simp [cellsFind, h, eq_comm]
      omega
    · split
      · subst_vars
        by_cases h : b = k <;> simp [cellsFind, h, eq_comm]
      · simp only [cellsFind, ih]
        by_cases h : b = a
        · subst h; simp; omega
        · simp [h]

theorem cellsFind_cellsDrop (m : List Host.Cell) (a b : Nat) :
    cellsFind (cellsDrop m a) b = if b = a then none else cellsFind m b := by
  induction m with
  | nil => simp [cellsDrop, cellsFind]
  | cons c rest ih =>
    obtain ⟨k, x⟩ := c
    simp only [cellsDrop]
    split
    · subst_vars
      rw [ih]
      by_cases h : b = k <;> simp [cellsFind, h, eq_comm]
    · simp only [cellsFind, ih]
      by_cases h : b = a
      · subst h; simp; omega
      · simp [h]

/-- Read after write: the written byte at the written address, every other byte as before. -/
theorem memRead_memWrite (init m : List Host.Cell) (a : Nat) (v : Byte) (b : Nat) :
    memRead init (memWrite init m a v) b = if b = a then v else memRead init m b := by
  unfold memRead memWrite
  split
  · rename_i h
    rw [cellsFind_cellsDrop]
    by_cases hb : b = a <;> simp [hb, h]
  · rw [cellsFind_cellsPut]
    by_cases hb : b = a <;> simp [hb]

theorem mem_cellsPut {m : List Host.Cell} {a : Nat} {v : Byte} {c : Host.Cell} (h : c ∈ cellsPut m a v) :
    c = (a, v) ∨ c ∈ m := by
  induction m with
  | nil => simpa [cellsPut] using h
  | cons d rest ih =>
    obtain ⟨k, x⟩ := d
    simp only [cellsPut] at h
    split at h
    · simpa using h
    · split at h
      · rcases List.mem_cons.1 h with h | h
        · exact .inl h
        · exact .inr (List.mem_cons_of_mem _ h)
      · rcases List.mem_cons.1 h with h | h
        · exact .inr (h ▸ List.mem_cons_self)
        · rcases ih h with h | h
          · exact .inl h
          · exact .inr (List.mem_cons_of_mem _ h)

theorem mem_cellsDrop {m : List Host.Cell} {a : Nat} {c : Host.Cell} (h : c ∈ cellsDrop m a) : c ∈ m := by
  induction m with
  | nil => exact h
  | cons d rest ih =>
    obtain ⟨k, x⟩ := d
    simp only [cellsDrop] at h
    split at h
    · exact List.mem_cons_of_mem _ (ih h)
    · rcases List.mem_cons.1 h with h | h
      · exact h ▸ List.mem_cons_self
      · exact List.mem_cons_of_mem _ (ih h)

theorem cellsPut_rising {m : List Host.Cell} (hm : m.Pairwise (fun x y => x.1 < y.1)) (a : Nat) (v : Byte) :
    (cellsPut m a v).Pairwise (fun x y => x.1 < y.1) := by
  induction m with
  | nil => simp [cellsPut]
  | cons d rest ih =>
    obtain ⟨k, x⟩ := d
    rw [List.pairwise_cons] at hm
    simp only [cellsPut]
    split
    · rename_i h
      refine List.pairwise_cons.2 ⟨fun c hc => ?_, List.pairwise_cons.2 hm⟩
      rcases List.mem_cons.1 hc with rfl | hc
      · exact h
      · exact Nat.lt_trans h (hm.1 c hc)
    · split
      · rename_i h
        subst h
        exact List.pairwise_cons.2 hm
      · refine List.pairwise_cons.2 ⟨fun c hc => ?_, ih hm.2⟩
        rcases mem_cellsPut hc with rfl | hc
        · simp only; omega
        · exact hm.1 c hc

theorem cellsDrop_rising {m : List Host.Cell} (hm : m.Pairwise (fun x y => x.1 < y.1)) (a : Nat) :
    (cellsDrop m a).Pairwise (fun x y => x.1 < y.1) := by
  induction m with
  | nil => simp [cellsDrop]
  | cons d rest ih =>
    obtain ⟨k, x⟩ := d
    rw [List.pairwise_cons] at hm
    simp only [cellsDrop]
    split
    · exact ih hm.2
    · exact List.pairwise_cons.2 ⟨fun c hc => hm.1 c (mem_cellsDrop hc), ih hm.2⟩

/-- A store keeps the canonical form. -/
theorem memWrite_wf {init m : List Host.Cell} (hm : Memory.wf init m) {a : Nat} (ha : a < 256) (v : Byte) :
    Memory.wf init (memWrite init m a v) := by
  obtain ⟨h1, h2, h3⟩ := hm
  unfold memWrite
  split
  · exact ⟨cellsDrop_rising h1 a, fun c hc => h2 c (mem_cellsDrop hc), fun c hc => h3 c (mem_cellsDrop hc)⟩
  · rename_i hv
    refine ⟨cellsPut_rising h1 a v, fun c hc => ?_, fun c hc => ?_⟩
    · rcases mem_cellsPut hc with rfl | hc
      · exact ha
      · exact h2 c hc
    · rcases mem_cellsPut hc with rfl | hc
      · exact hv
      · exact h3 c hc

namespace State

/-- R14: a raw store, seen through `x[b]`. -/
theorem reg_setReg (s : State) (a : Addr) (v : Byte) (b : Addr) :
    (s.setReg a v).reg b = if b = a then v else s.reg b := by
  simp only [reg, setReg_config, setReg_registers, memRead_memWrite, BitVec.toNat_inj]

@[simp] theorem reg_setReg_same (s : State) (a : Addr) (v : Byte) : (s.setReg a v).reg a = v := by
  simp [reg_setReg]

/-- `x[a]` depends on the configuration and the register file alone. -/
theorem reg_congr {s t : State} (hc : t.config = s.config) (hr : t.registers = s.registers) (a : Addr) :
    t.reg a = s.reg a := by
  simp only [reg, hc, hr]

theorem setReg_wf {s : State} (h : Memory.wf s.config.initRegs s.registers) (a : Addr) (v : Byte) :
    Memory.wf (s.setReg a v).config.initRegs (s.setReg a v).registers := by
  simpa using memWrite_wf h a.isLt v

end State

/-! ## Equal register files are equal data -/

theorem cellsFind_of_mem {m : List Host.Cell} (h : m.Pairwise (fun x y => x.1 < y.1)) {c : Host.Cell} (hc : c ∈ m) :
    cellsFind m c.1 = some c.2 := by
  induction m with
  | nil => cases hc
  | cons x rest ih =>
    obtain ⟨k, v⟩ := x
    rw [List.pairwise_cons] at h
    rcases List.mem_cons.1 hc with rfl | hc
    · simp [cellsFind]
    · have := h.1 c hc
      have hne : ¬ k = c.1 := by simp at this; omega
      simp [cellsFind, hne, ih h.2 hc]

theorem mem_of_cellsFind {m : List Host.Cell} {a : Nat} {v : Byte} (h : cellsFind m a = some v) : (a, v) ∈ m := by
  induction m with
  | nil => simp [cellsFind] at h
  | cons x rest ih =>
    obtain ⟨k, u⟩ := x
    simp only [cellsFind] at h
    split at h
    · rename_i hk; simp_all
    · exact List.mem_cons_of_mem _ (ih h)

/-- Two register files in canonical form that read alike are one list. -/
theorem Memory.wf_unique {init m m' : List Host.Cell} (h : Memory.wf init m) (h' : Memory.wf init m')
    (e : ∀ a, a < 256 → memRead init m a = memRead init m' a) : m = m' := by
  have sub : ∀ {p q : List Host.Cell}, Memory.wf init p → Memory.wf init q →
      (∀ a, a < 256 → memRead init p a = memRead init q a) → ∀ c ∈ p, c ∈ q := by
    intro p q hp hq e c hc
    have h1 := e c.1 (hp.2.1 c hc)
    simp only [memRead, cellsFind_of_mem hp.1 hc, Option.getD_some] at h1
    cases hf : cellsFind q c.1 with
    | none => rw [hf] at h1; exact absurd h1 (hp.2.2 c hc)
    | some v => rw [hf] at h1; simp only [Option.getD_some] at h1; subst h1; exact mem_of_cellsFind hf
  have nd : ∀ {p : List Host.Cell}, p.Pairwise (fun x y => x.1 < y.1) → p.Nodup := fun hp =>
    hp.imp (fun hxy hx => by rw [hx] at hxy; omega)
  have perm : m.Perm m' := (List.perm_ext_iff_of_nodup (nd h.1) (nd h'.1)).2
    (fun c => ⟨sub h h' e c, sub h' h (fun a ha => (e a ha).symm) c⟩)
  exact perm.eq_of_pairwise (fun a b _ _ h1 h2 => by omega) h.1 h'.1

end Sys2Proof.Machine
end

