-- ==== Sys2Proof/Laws/Flags.lean ====
section
/-! SUPPORT. The dirty bits and the read-only table, seen through `mod[a]` and `ro[a]`, and `x[a]` under every primitive
update. -/

namespace Sys2Proof.Machine.State

theorem dirty_setDirty (s : State) (a b : Addr) :
    (s.setDirty a).dirty b = if b = a then true else s.dirty b := by
  have ha := a.isLt
  have hb := b.isLt
  simp only [dirty, setDirty_modified, BitVec.getLsbD_or, BitVec.getLsbD_twoPow]
  by_cases h : b = a
  · subst h; simp; omega
  · have : ¬ a.toNat = b.toNat := fun e => h (BitVec.eq_of_toNat_eq e.symm)
    simp [h, this]

theorem dirty_clearDirty (s : State) (a b : Addr) :
    (s.clearDirty a).dirty b = if b = a then false else s.dirty b := by
  have ha := a.isLt
  have hb := b.isLt
  simp only [dirty, clearDirty_modified, BitVec.getLsbD_and, BitVec.getLsbD_not, BitVec.getLsbD_twoPow]
  by_cases h : b = a
  · subst h; simp
  · have : ¬ a.toNat = b.toNat := fun e => h (BitVec.eq_of_toNat_eq e.symm)
    simp [h, this]
    exact fun _ => by omega

theorem dirty_congr {s t : State} (h : t.modified = s.modified) (a : Addr) : t.dirty a = s.dirty a := by
  simp only [dirty, h]

theorem ro_congr {s t : State} (h : t.readOnly = s.readOnly) (a : Addr) : t.ro a = s.ro a := by
  simp only [ro, h]

/-! ## The observations under the primitive updates that do not touch them -/

variable (s : State) (x : Addr)

@[simp] theorem reg_setDirty (a : Addr) : (s.setDirty a).reg x = s.reg x := rfl
@[simp] theorem reg_clearDirty (a : Addr) : (s.clearDirty a).reg x = s.reg x := rfl
@[simp] theorem reg_setWip (b : Bool) : (s.setWip b).reg x = s.reg x := rfl
@[simp] theorem reg_clear (c : Latched) : (s.clear c).reg x = s.reg x := rfl
@[simp] theorem reg_envRaise (c : Latched) : (s.envRaise c).reg x = s.reg x := rfl
@[simp] theorem reg_envPush (b : Byte) : (s.envPush b).reg x = s.reg x := rfl
@[simp] theorem reg_rxDrop : (s.rxDrop).reg x = s.reg x := rfl
@[simp] theorem reg_txPush (b : Byte) : (s.txPush b).reg x = s.reg x := rfl
@[simp] theorem reg_setFsm (f : Fsm) : (s.setFsm f).reg x = s.reg x := rfl
@[simp] theorem reg_emit (es : List Output) : (s.emit es).reg x = s.reg x := rfl
@[simp] theorem reg_setReadData (r : Option Byte) : (s.setReadData r).reg x = s.reg x := rfl
@[simp] theorem reg_setEventData (r : Option Byte) : (s.setEventData r).reg x = s.reg x := rfl
@[simp] theorem reg_goTo (d : Draws) (n : Option PassPoint) : (s.goTo d n).reg x = s.reg x := rfl

@[simp] theorem dirty_setReg (a : Addr) (v : Byte) : (s.setReg a v).dirty x = s.dirty x := rfl
@[simp] theorem dirty_setWip (b : Bool) : (s.setWip b).dirty x = s.dirty x := rfl
@[simp] theorem dirty_clear (c : Latched) : (s.clear c).dirty x = s.dirty x := rfl
@[simp] theorem dirty_envRaise (c : Latched) : (s.envRaise c).dirty x = s.dirty x := rfl
@[simp] theorem dirty_envPush (b : Byte) : (s.envPush b).dirty x = s.dirty x := rfl
@[simp] theorem dirty_rxDrop : (s.rxDrop).dirty x = s.dirty x := rfl
@[simp] theorem dirty_txPush (b : Byte) : (s.txPush b).dirty x = s.dirty x := rfl
@[simp] theorem dirty_setFsm (f : Fsm) : (s.setFsm f).dirty x = s.dirty x := rfl
@[simp] theorem dirty_emit (es : List Output) : (s.emit es).dirty x = s.dirty x := rfl
@[simp] theorem dirty_setReadData (r : Option Byte) : (s.setReadData r).dirty x = s.dirty x := rfl
@[simp] theorem dirty_setEventData (r : Option Byte) : (s.setEventData r).dirty x = s.dirty x := rfl
@[simp] theorem dirty_goTo (d : Draws) (n : Option PassPoint) : (s.goTo d n).dirty x = s.dirty x := rfl

@[simp] theorem ro_setReg (a : Addr) (v : Byte) : (s.setReg a v).ro x = s.ro x := rfl
@[simp] theorem ro_setDirty (a : Addr) : (s.setDirty a).ro x = s.ro x := rfl
@[simp] theorem ro_clearDirty (a : Addr) : (s.clearDirty a).ro x = s.ro x := rfl
@[simp] theorem ro_setWip (b : Bool) : (s.setWip b).ro x = s.ro x := rfl
@[simp] theorem ro_clear (c : Latched) : (s.clear c).ro x = s.ro x := rfl
@[simp] theorem ro_envRaise (c : Latched) : (s.envRaise c).ro x = s.ro x := rfl
@[simp] theorem ro_envPush (b : Byte) : (s.envPush b).ro x = s.ro x := rfl
@[simp] theorem ro_rxDrop : (s.rxDrop).ro x = s.ro x := rfl
@[simp] theorem ro_txPush (b : Byte) : (s.txPush b).ro x = s.ro x := rfl
@[simp] theorem ro_setFsm (f : Fsm) : (s.setFsm f).ro x = s.ro x := rfl
@[simp] theorem ro_emit (es : List Output) : (s.emit es).ro x = s.ro x := rfl
@[simp] theorem ro_setReadData (r : Option Byte) : (s.setReadData r).ro x = s.ro x := rfl
@[simp] theorem ro_setEventData (r : Option Byte) : (s.setEventData r).ro x = s.ro x := rfl
@[simp] theorem ro_goTo (d : Draws) (n : Option PassPoint) : (s.goTo d n).ro x = s.ro x := rfl

end Sys2Proof.Machine.State
end

