-- ==== Sys2Proof/Laws/Ops.lean ====
section
/-! SUPPORT. One spec lemma for each shared operation: everything it does, so that a proof cites the lemma instead of
unfolding the operation. -/

namespace Sys2Proof.Machine

theorem Pending.eq_of_drops (p : Pending) :
    (((p.drop .sd).drop .sp).drop .ab) = ⟨false, p.rr, false, false⟩ := rfl

namespace State

variable (s : State)

/-- R142, whole: what a recovery leaves. -/
theorem recover_eq (cause : RecoverCause) :
    s.recover cause = { s with
      fsm := .idle, pend := ⟨false, false, false, false⟩, rxq := s.rxq.tail
      txlog := if s.pend.rr then s.txlog ++ [s.config.txSentinel] else s.txlog
      recoveries := s.recoveries ++ [cause] } := by
  rcases s with ⟨_, _, _, _, _, _, _, _, _, _, _, _, ⟨sd, rr, sp, ab⟩, rxq, _, _, _, _, _, _, _, _, _⟩
  cases rxq <;> cases rr <;> rfl

/-- R76, as a record: only the register file and the dirty bits change. -/
theorem busWrite_eq (a : Addr) (v : Byte) :
    s.busWrite a v = { s with
      registers := (s.busWrite a v).registers, modified := (s.busWrite a v).modified } := by
  unfold busWrite
  split <;> rfl

/-- R76: the register stored. -/
theorem reg_busWrite (a : Addr) (v : Byte) (b : Addr) :
    (s.busWrite a v).reg b = if b = a ∧ s.ro a = false then v else s.reg b := by
  unfold busWrite
  by_cases h : s.ro a <;> simp [h, reg_setReg]

/-- R76: the dirty bit set. -/
theorem dirty_busWrite (a : Addr) (v : Byte) (b : Addr) :
    (s.busWrite a v).dirty b = if b = a ∧ s.ro a = false then true else s.dirty b := by
  unfold busWrite
  by_cases h : s.ro a <;> simp [h, dirty_setDirty]

/-- R164, as a record. -/
theorem acknowledge_eq :
    s.acknowledge = { s with registers := s.acknowledge.registers, target := false, clearPending := true } := rfl

/-- R164: both interrupt-pending registers read zero, every other register as before. -/
theorem reg_acknowledge (b : Addr) :
    s.acknowledge.reg b =
      if b = s.config.map.interrupt1 ∨ b = s.config.map.interrupt2 then 0x00#8 else s.reg b := by
  have h : s.acknowledge.reg b
      = ((s.setReg s.config.map.interrupt1 0x00#8).setReg s.config.map.interrupt2 0x00#8).reg b := rfl
  rw [h, reg_setReg, reg_setReg]
  by_cases h1 : b = s.config.map.interrupt1 <;> by_cases h2 : b = s.config.map.interrupt2 <;> simp [h1, h2]

/-- R162, as a record. -/
theorem receiveData_eq (b : Byte) :
    s.receiveData b = { s with
      registers := (s.receiveData b).registers, modified := (s.receiveData b).modified
      cursor := s.cursor + 1#8 } := by
  unfold receiveData nextCursor
  rw [busWrite_eq]

theorem reg_receiveData (b : Byte) (a : Addr) :
    (s.receiveData b).reg a = if a = s.cursor ∧ s.ro s.cursor = false then b else s.reg a :=
  reg_busWrite s s.cursor b a

theorem dirty_receiveData (b : Byte) (a : Addr) :
    (s.receiveData b).dirty a = if a = s.cursor ∧ s.ro s.cursor = false then true else s.dirty a :=
  dirty_busWrite s s.cursor b a

/-- R163, as a record: the registers and the arbitration bits change in the acknowledge case alone. -/
theorem request_eq :
    s.request = { s with
      registers := s.request.registers, writeInProgress := false, cursor := s.cursor + 1#8
      target := if s.cursor = s.config.map.interrupt2 then false else s.target
      clearPending := if s.cursor = s.config.map.interrupt2 then true else s.clearPending } := by
  unfold request nextCursor
  by_cases h : s.cursor = s.config.map.interrupt2 <;> simp [h, setWip, acknowledge, setReg]

theorem reg_request (b : Addr) :
    s.request.reg b =
      if s.cursor = s.config.map.interrupt2 ∧ (b = s.config.map.interrupt1 ∨ b = s.config.map.interrupt2) then 0x00#8
      else s.reg b := by
  by_cases h : s.cursor = s.config.map.interrupt2
  · have e : s.request.reg b = (s.setWip false).acknowledge.reg b := by
      simp only [request, h, if_true]; rfl
    rw [e, reg_acknowledge]
    simp only [setWip_config, reg_setWip, h, true_and]
    rfl
  · have e : s.request.reg b = s.reg b := by
      simp only [request, h, if_false]; rfl
    rw [e]
    simp [h]

@[simp] theorem dirty_request (b : Addr) : s.request.dirty b = s.dirty b := by
  rw [request_eq]; rfl

/-- R190, as a record. -/
theorem arbResolve_eq :
    s.arbResolve = { s with
      current := if s.clearPending then false else s.target
      clearPending := false
      emitted :=
        if s.clearPending then s.emitted ++ [.line false]
        else if s.target = s.current then s.emitted else s.emitted ++ [.line s.target]
      readData := none } := by
  rcases s with ⟨_, _, _, _, _, _, _, target, current, clearPending, _, _, _, _, _, _, _, _, _, _, _, _, _⟩
  cases target <;> cases current <;> cases clearPending <;> rfl

end State

end Sys2Proof.Machine
end

