-- ==== Sys2Proof/Laws/PerInstr.lean ====
section
/-! SUPPORT. Laws of each instruction, one lemma for each constructor: the word the encoder writes has the fixed bits of
the instruction's row in spec/opcode_table.json. -/

namespace Sys2Proof.Laws.TableRow

open Sys2Proof Sys2Proof.Machine

/-- The row of an instruction in spec/opcode_table.json: the width of its words, its mask and its match. -/
def row : Instr → Nat × Nat × Nat
  | .tIdleStart => (7, 0x61, 0x01)
  | .tIdleAbort => (7, 0x71, 0x10)
  | .tIdleRecover => (7, 0x60, 0x00)
  | .tStartWrite => (7, 0x62, 0x22)
  | .tStartRead => (7, 0x66, 0x24)
  | .tStartFault => (7, 0x60, 0x20)
  | .tWriteRx => (7, 0x62, 0x42)
  | .tWriteStop => (7, 0x6A, 0x48)
  | .tWriteRestart => (7, 0x6B, 0x41)
  | .tWriteRdreq => (7, 0x6F, 0x44)
  | .tWriteRecover => (7, 0x60, 0x40)
  | .tReadReq => (7, 0x64, 0x64)
  | .tReadStop => (7, 0x6C, 0x68)
  | .tReadRecover => (7, 0x60, 0x60)
  | .receiveAddr _ => (11, 0x700, 0x000)
  | .receiveData _ => (11, 0x700, 0x100)
  | .request => (11, 0x600, 0x200)
  | .finish => (11, 0x600, 0x400)
  | .init _ => (20, 0xF0000, 0x00000)
  | .deinit => (20, 0xF0000, 0x10000)
  | .tip => (20, 0xF0000, 0x20000)
  | .regwr _ _ => (20, 0xF0000, 0x30000)
  | .lpRead _ => (20, 0xF0000, 0x40000)
  | .lpStore _ _ => (20, 0xF0000, 0x50000)
  | .lpModtest _ => (20, 0xF0000, 0x60000)
  | .lpModclr _ => (20, 0xF0000, 0x70000)
  | .arbSetTarget => (20, 0xF0000, 0x80000)
  | .arbResolve => (20, 0xF0000, 0x90000)
  | .setCrashDebug _ => (20, 0xF0000, 0xA0000)
  | .setResetAttempted _ => (20, 0xF0000, 0xB0000)
  | .getResetAllowed => (20, 0xF0000, 0xC0000)

/-- The width and the bits of a port's word. -/
def bits : PortWord → Nat × Nat
  | .selector w => (7, w.toNat)
  | .event w => (11, w.toNat)
  | .localOp w => (20, w.toNat)

/-- The word of the instruction has its row's width and its row's fixed bits. -/
abbrev Statement (i : Instr) : Prop :=
  (bits (encode i)).1 = (row i).1 ∧ (bits (encode i)).2 &&& (row i).2.1 = (row i).2.2

theorem localWord_op (op : BitVec 4) (a v : BitVec 8) :
    (localWord op a v).toNat &&& 0xF0000 = op.toNat * 0x10000 := by
  have h : localWord op a v &&& 0xF0000#20 = localWord op 0#8 0#8 := by
    apply BitVec.eq_of_getLsbD_eq
    intro k hk
    simp only [localWord, BitVec.getLsbD_and, BitVec.getLsbD_append]
    by_cases h16 : k < 16
    · have : (0xF0000#20).getLsbD k = false := by interval_cases k <;> rfl
      simp only [this, Bool.and_false]
      by_cases h8 : k < 8
      · simp [h8]
      · have : k - 8 < 8 := by omega
        simp [h8, this]
    · have : (0xF0000#20).getLsbD k = true := by
        have : 16 ≤ k := by omega
        interval_cases k <;> rfl
      have h8 : ¬ k < 8 := by omega
      have h9 : ¬ k - 8 < 8 := by omega
      simp [this, h8, h9]
  have h' := congrArg BitVec.toNat h
  simp only [BitVec.toNat_and, BitVec.toNat_ofNat] at h'
  rw [show (0xF0000 : Nat) = 0xF0000 % 2 ^ 20 from rfl, h']
  exact (by decide : ∀ o : BitVec 4, (localWord o 0#8 0#8).toNat = o.toNat * 0x10000) op

theorem eventWord_bits (ev : BitVec 2) (wip : Bool) (b : Byte) (m : BitVec 11) (hm : m &&& 0x0FF#11 = 0#11) :
    (eventWord ev wip b).toNat &&& m.toNat = (eventWord ev wip 0#8).toNat &&& m.toNat := by
  have h := congrArg BitVec.toNat (eventWord_masked ev wip b m hm)
  simpa only [BitVec.toNat_and] using h

theorem tIdleStart : Statement .tIdleStart := by decide
theorem tIdleAbort : Statement .tIdleAbort := by decide
theorem tIdleRecover : Statement .tIdleRecover := by decide
theorem tStartWrite : Statement .tStartWrite := by decide
theorem tStartRead : Statement .tStartRead := by decide
theorem tStartFault : Statement .tStartFault := by decide
theorem tWriteRx : Statement .tWriteRx := by decide
theorem tWriteStop : Statement .tWriteStop := by decide
theorem tWriteRestart : Statement .tWriteRestart := by decide
theorem tWriteRdreq : Statement .tWriteRdreq := by decide
theorem tWriteRecover : Statement .tWriteRecover := by decide
theorem tReadReq : Statement .tReadReq := by decide
theorem tReadStop : Statement .tReadStop := by decide
theorem tReadRecover : Statement .tReadRecover := by decide
theorem receiveAddr (b : Byte) : Statement (.receiveAddr b) :=
  ⟨rfl, eventWord_bits 0#2 false b 0x700#11 (by decide)⟩
theorem receiveData (b : Byte) : Statement (.receiveData b) :=
  ⟨rfl, eventWord_bits 0#2 true b 0x700#11 (by decide)⟩
theorem request : Statement .request := by decide
theorem finish : Statement .finish := by decide
theorem init (a : BitVec 8) : Statement (.init a) := ⟨rfl, localWord_op 0#4 a 0#8⟩
theorem deinit : Statement .deinit := ⟨rfl, localWord_op 1#4 0#8 0#8⟩
theorem tip : Statement .tip := ⟨rfl, localWord_op 2#4 0#8 0#8⟩
theorem regwr (a v : BitVec 8) : Statement (.regwr a v) := ⟨rfl, localWord_op 3#4 a v⟩
theorem lpRead (a : BitVec 8) : Statement (.lpRead a) := ⟨rfl, localWord_op 4#4 a 0#8⟩
theorem lpStore (a v : BitVec 8) : Statement (.lpStore a v) := ⟨rfl, localWord_op 5#4 a v⟩
theorem lpModtest (a : BitVec 8) : Statement (.lpModtest a) := ⟨rfl, localWord_op 6#4 a 0#8⟩
theorem lpModclr (a : BitVec 8) : Statement (.lpModclr a) := ⟨rfl, localWord_op 7#4 a 0#8⟩
theorem arbSetTarget : Statement .arbSetTarget := ⟨rfl, localWord_op 8#4 0#8 0#8⟩
theorem arbResolve : Statement .arbResolve := ⟨rfl, localWord_op 9#4 0#8 0#8⟩
theorem setCrashDebug (v : BitVec 8) : Statement (.setCrashDebug v) := ⟨rfl, localWord_op 10#4 0#8 v⟩
theorem setResetAttempted (v : BitVec 8) : Statement (.setResetAttempted v) := ⟨rfl, localWord_op 11#4 0#8 v⟩
theorem getResetAllowed : Statement .getResetAllowed := ⟨rfl, localWord_op 12#4 0#8 0#8⟩

end Sys2Proof.Laws.TableRow
end

