-- ==== Sys2Proof/Laws/Step.lean ====
section
/-! SUPPORT. What one step can be, said once: the cases of a step that answers a next state. -/

namespace Sys2Proof.Machine

theorem runDecoded_ok (i : Instr) (s : State) : runDecoded (.ok i) s = exec i s := rfl

theorem runDecoded_next {d : Except DecodeReject Instr} {s t : State} (h : runDecoded d s = .next t) :
    ∃ i, d = .ok i ∧ exec i s = .next t := by
  cases d with
  | ok i => exact ⟨i, rfl, h⟩
  | error r => simp [runDecoded] at h

/-- What an engine turn that answers a next state is: no step at all, or the selected branch. -/
theorem engineTurn_cases {s t : State} (h : engineTurn s = .next t) :
    (t = s ∧ (s.enabled = false ∨ s.cond = 0#5)) ∨
      (s.enabled = true ∧ s.cond ≠ 0#5 ∧
        ∃ i, decodeBranch s.config.condPolicy s.selector = .ok i ∧ exec i s = .next t) := by
  unfold engineTurn at h
  split at h
  · rename_i hc
    exact .inr ⟨hc.1, hc.2, runDecoded_next h⟩
  · rename_i hc
    refine .inl ⟨by simpa using h.symm, ?_⟩
    cases he : s.enabled with
    | false => exact .inl rfl
    | true =>
      refine .inr ?_
      by_contra hne
      exact hc ⟨he, hne⟩

/-- What a step that answers a next state is, turn by turn. -/
theorem step_cases {s t : State} (h : step s = .next t) :
    s.halted = false ∧
      ((s.schedule = [] ∧ engineTurn s = .next t) ∨
      (∃ c rest, s.schedule = .raise c :: rest ∧ t = ({ s with schedule := rest } : State).envRaise c) ∨
      (∃ b rest, s.schedule = .push b :: rest ∧ s.rxHasRoom = true ∧
        t = ({ s with schedule := rest } : State).envPush b) ∨
      (∃ rest, s.schedule = .engine :: rest ∧ engineTurn { s with schedule := rest } = .next t) ∨
      (∃ w rest, s.schedule = .localOp w :: rest ∧ s.passInProgress = none ∧
        localTurn w { s with schedule := rest } = .next t) ∨
      (∃ d rest, s.schedule = .pass d :: rest ∧ s.passInProgress = none ∧
        t = ({ s with schedule := rest } : State).passTurn d) ∨
      (∃ rest, s.schedule = .poll :: rest ∧ t = ({ s with schedule := rest } : State).passStep) ∨
      (∃ p, s.passInProgress = some p ∧ t = s.passStep ∧
        ((∃ w rest, s.schedule = .localOp w :: rest) ∨ ∃ d rest, s.schedule = .pass d :: rest))) := by
  unfold step at h
  split at h
  · simp at h
  · rename_i hh
    refine ⟨by simpa using hh, ?_⟩
    unfold moveNext at h
    split at h
    · rename_i hs; exact .inl ⟨hs, h⟩
    · rename_i c rest hs; exact .inr (.inl ⟨c, rest, hs, by simpa using h.symm⟩)
    · rename_i b rest hs
      unfold pushTurn at h
      split at h
      · rename_i hr; exact .inr (.inr (.inl ⟨b, rest, hs, hr, by simpa using h.symm⟩))
      · simp at h
    · rename_i rest hs; exact .inr (.inr (.inr (.inl ⟨rest, hs, h⟩)))
    · rename_i w rest hs
      split at h
      · rename_i hp
        obtain ⟨p, hp⟩ := Option.isSome_iff_exists.1 hp
        refine .inr (.inr (.inr (.inr (.inr (.inr (.inr ⟨p, hp, by simpa using h.symm, .inl ⟨w, rest, hs⟩⟩))))))
      · rename_i hp
        refine .inr (.inr (.inr (.inr (.inl ⟨w, rest, hs, by simpa using hp, h⟩))))
    · rename_i d rest hs
      split at h
      · rename_i hp
        obtain ⟨p, hp⟩ := Option.isSome_iff_exists.1 hp
        refine .inr (.inr (.inr (.inr (.inr (.inr (.inr ⟨p, hp, by simpa using h.symm, .inr ⟨d, rest, hs⟩⟩))))))
      · rename_i hp
        refine .inr (.inr (.inr (.inr (.inr (.inl ⟨d, rest, hs, by simpa using hp, by simpa using h.symm⟩)))))
    · rename_i rest hs
      exact .inr (.inr (.inr (.inr (.inr (.inr (.inl ⟨rest, hs, by simpa using h.symm⟩))))))

/-- R230: a handler emits and may end the run; it changes nothing else. -/
theorem State.handler_eq (s : State) (a : Addr) (v : Byte) :
    s.handler a v = { s with emitted := (s.handler a v).emitted, halted := (s.handler a v).halted } := by
  unfold State.handler State.irHandler State.bootloaderHandler
  repeat' split
  all_goals rfl

/-- R211 to R215: what any micro-step of a pass leaves alone. -/
theorem State.passStep_eq (s : State) :
    s.passStep = { s with
      registers := s.passStep.registers, modified := s.passStep.modified
      target := s.passStep.target, current := s.passStep.current, clearPending := s.passStep.clearPending
      nextChannel := s.passStep.nextChannel, halted := s.passStep.halted
      passInProgress := s.passStep.passInProgress, readData := s.passStep.readData
      emitted := s.passStep.emitted } := by
  unfold State.passStep
  cases s.passInProgress with
  | none => rfl
  | some p =>
    obtain ⟨d, q⟩ := p
    cases q <;> simp only [State.passStepAt]
    case line => rw [State.arbResolve_eq]; rfl
    case handler a v =>
      split
      · rw [State.handler_eq]
      · rw [State.handler_eq]; rfl
    all_goals rfl

/-- The same of any number of micro-steps. -/
theorem State.passRun_eq (n : Nat) (s : State) :
    State.passRun n s = { s with
      registers := (State.passRun n s).registers, modified := (State.passRun n s).modified
      target := (State.passRun n s).target, current := (State.passRun n s).current
      clearPending := (State.passRun n s).clearPending
      nextChannel := (State.passRun n s).nextChannel, halted := (State.passRun n s).halted
      passInProgress := (State.passRun n s).passInProgress, readData := (State.passRun n s).readData
      emitted := (State.passRun n s).emitted } := by
  induction n generalizing s with
  | zero => rfl
  | succ n ih =>
    simp only [State.passRun]
    split
    · rfl
    · rw [ih, State.passStep_eq]

/-- What no operation changes: the configuration, the read-only table, the schedule, the Dispatcher's place and index,
and `halted`. -/
theorem exec_keeps {i : Instr} {s t : State} (h : exec i s = .next t) :
    t.config = s.config ∧ t.readOnly = s.readOnly ∧ t.schedule = s.schedule ∧ t.passInProgress = s.passInProgress ∧
      t.nextChannel = s.nextChannel ∧ t.halted = s.halted := by
  cases i <;> simp only [exec] at h
  case tWriteRx =>
    unfold execTWriteRx at h; split at h
    · cases h
    · cases h; unfold State.receive; split
      · rw [State.receiveData_eq]; exact ⟨rfl, rfl, rfl, rfl, rfl, rfl⟩
      · exact ⟨rfl, rfl, rfl, rfl, rfl, rfl⟩
  case init a => unfold execInit at h; split at h <;> cases h; exact ⟨rfl, rfl, rfl, rfl, rfl, rfl⟩
  case deinit => unfold execDeinit at h; split at h; cases h; split at h <;> cases h; exact ⟨rfl, rfl, rfl, rfl, rfl, rfl⟩
  case receiveData b => cases h; rw [State.receiveData_eq]; exact ⟨rfl, rfl, rfl, rfl, rfl, rfl⟩
  case request => cases h; rw [State.request_eq]; exact ⟨rfl, rfl, rfl, rfl, rfl, rfl⟩
  case tReadReq => cases h; rw [State.request_eq]; exact ⟨rfl, rfl, rfl, rfl, rfl, rfl⟩
  case regwr a v => cases h; rw [State.busWrite_eq]; exact ⟨rfl, rfl, rfl, rfl, rfl, rfl⟩
  case arbResolve => cases h; rw [State.arbResolve_eq]; exact ⟨rfl, rfl, rfl, rfl, rfl, rfl⟩
  case tIdleRecover => cases h; rw [State.recover_eq]; exact ⟨rfl, rfl, rfl, rfl, rfl, rfl⟩
  case tStartFault => cases h; rw [State.recover_eq]; exact ⟨rfl, rfl, rfl, rfl, rfl, rfl⟩
  case tWriteRecover => cases h; rw [State.recover_eq]; exact ⟨rfl, rfl, rfl, rfl, rfl, rfl⟩
  case tReadRecover => cases h; rw [State.recover_eq]; exact ⟨rfl, rfl, rfl, rfl, rfl, rfl⟩
  all_goals (cases h; exact ⟨rfl, rfl, rfl, rfl, rfl, rfl⟩)

/-- R210: a pass that begins touches no field of the block. -/
theorem State.passBegin_eq (s : State) (d : Draws) :
    s.passBegin d = { s with
      passInProgress := (s.passBegin d).passInProgress, readData := (s.passBegin d).readData } := by
  unfold State.passBegin; split <;> rfl

/-- The same of a whole turn. -/
theorem State.passTurn_eq (s : State) (d : Draws) :
    s.passTurn d = { s with
      registers := (s.passTurn d).registers, modified := (s.passTurn d).modified
      target := (s.passTurn d).target, current := (s.passTurn d).current
      clearPending := (s.passTurn d).clearPending
      nextChannel := (s.passTurn d).nextChannel, halted := (s.passTurn d).halted
      passInProgress := (s.passTurn d).passInProgress, readData := (s.passTurn d).readData
      emitted := (s.passTurn d).emitted } := by
  unfold State.passTurn
  split
  · rw [State.passBegin_eq]
  · rw [State.passRun_eq, State.passBegin_eq]

/-- The selected branch is the state's recovery branch, or the branch of the first handled condition. -/
theorem branch_or_recovery {s : State} {i : Instr} (h : decodeBranch s.config.condPolicy s.selector = .ok i) :
    i = recoveryOf s.fsm ∨ i = s.condBits.branch s.fsm := by
  rw [decodeBranch_state] at h
  split at h <;> cases h
  · exact .inl rfl
  · exact .inr rfl

/-- What the selection of a branch says of the state, under either policy. -/
theorem branch_cases {s : State} {i : Instr} (h : decodeBranch s.config.condPolicy s.selector = .ok i) :
    (s.fsm = .idle ∧ ((i = .tIdleStart ∧ s.pend.sd = true) ∨
      (i = .tIdleAbort ∧ s.pend.sd = false ∧ s.pend.ab = true) ∨ i = .tIdleRecover)) ∨
    (s.fsm = .start ∧ ((i = .tStartWrite ∧ s.rxq ≠ []) ∨ (i = .tStartRead ∧ s.pend.rr = true) ∨ i = .tStartFault)) ∨
    (s.fsm = .write ∧ ((i = .tWriteRx ∧ s.rxq ≠ []) ∨ (i = .tWriteStop ∧ s.pend.sp = true ∧ s.rxq = []) ∨
      (i = .tWriteRestart ∧ s.pend.sd = true ∧ s.rxq = [] ∧ s.pend.sp = false) ∨
      (i = .tWriteRdreq ∧ s.pend.rr = true ∧ s.rxq = [] ∧ s.pend.sp = false ∧ s.pend.sd = false) ∨
      i = .tWriteRecover)) ∨
    (s.fsm = .read ∧ ((i = .tReadReq ∧ s.pend.rr = true) ∨
      (i = .tReadStop ∧ s.pend.rr = false ∧ s.pend.sp = true) ∨ i = .tReadRecover)) := by
  rcases branch_or_recovery h with rfl | rfl
  · cases s.fsm <;> simp [recoveryOf]
  · rcases hp : s.pend with ⟨sd, rr, sp, ab⟩
    cases hf : s.fsm <;> cases hq : s.rxq <;> cases sd <;> cases rr <;> cases sp <;> cases ab <;>
      simp [CondBits.branch, State.condBits, State.rx, hp, hq]

/-- The only fault an operation raises. -/
theorem exec_fault {i : Instr} {s : State} {r : Fault} (h : exec i s = .fault r) : i = .tWriteRx ∧ s.rxq = [] := by
  cases i <;> simp only [exec] at h
  case tWriteRx =>
    unfold execTWriteRx at h; split at h
    · rename_i h'; exact ⟨rfl, h'⟩
    · cases h
  case init a => unfold execInit at h; split at h <;> cases h
  case deinit => unfold execDeinit at h; split at h; cases h; split at h <;> cases h
  all_goals cases h

/-! ## The events inside their branches (R160) -/

/-- `T_WRITE_RX` is RECEIVE on the oldest byte. -/
theorem execTWriteRx_eq {s : State} {b : Byte} {rest : List Byte} (h : s.rxq = b :: rest) :
    execTWriteRx s = .next (({ s with rxq := rest } : State).receive b) := by
  simp [execTWriteRx, h, State.rxDrop]

/-- A whole pass is some number of micro-steps, none of them after it has ended. -/
theorem State.passRun_iterate (n : Nat) (s : State) :
    ∃ k, k ≤ n ∧ State.passRun n s = State.passStep^[k] s ∧
      ∀ j, j < k → (State.passStep^[j] s).halted = false ∧ (State.passStep^[j] s).passInProgress ≠ none := by
  induction n generalizing s with
  | zero => exact ⟨0, Nat.le_refl 0, rfl, fun _ h => absurd h (Nat.not_lt_zero _)⟩
  | succ n ih =>
    simp only [State.passRun]
    split
    · exact ⟨0, Nat.zero_le _, rfl, fun _ h => absurd h (Nat.not_lt_zero _)⟩
    · rename_i hc
      obtain ⟨k, hk, he, hj⟩ := ih s.passStep
      refine ⟨k + 1, by omega, he, fun j hlt => ?_⟩
      cases j with
      | zero =>
        rw [Bool.or_eq_true, not_or] at hc
        exact ⟨by simpa using hc.1, fun e => hc.2 (by rw [Function.iterate_zero, id] at e; rw [e]; rfl)⟩
      | succ j => exact hj j (by omega)

end Sys2Proof.Machine
end

