-- ==== Sys2Proof/Tests/Slice0.lean ====
section
/-! SUPPORT. Tests of the model. Expected results are the spec's own: its encodings (30_encoding.md), its vectors
V-B*, V-C*, V-P*, V-D* (95_test_vectors.md), which each theorem names. The last part shows, for each obligation that has
hypotheses, states and operands that meet them. -/

namespace Sys2Proof.Tests

open Sys2Proof.Machine

/-! ## Helpers -/

/-- The state of the vectors: "Reset+init". -/
def ready : State := { State.reset with enabled := true, slaveAddr := 0x17#7 }

/-- No condition latched. -/
def quiet : Pending := ⟨false, false, false, false⟩

/-- One condition latched. -/
def only (c : Latched) : Pending := quiet.add c

/-- A transaction state with latched conditions and queued bytes. -/
def seen (f : Fsm) (p : Pending) (q : List Byte) : State := { ready with fsm := f, pend := p, rxq := q }

/-- The same under `strict`. -/
def seenStrict (f : Fsm) (p : Pending) (q : List Byte) : State :=
  { seen f p q with config := { Config.ref with condPolicy := .strict } }

/-- Whether an outcome is a next state with a property. -/
def nextHas (o : Host.Outcome State Fault Refusal) (p : State → Bool) : Bool :=
  match o with
  | .next t => p t
  | .fault _ => false
  | .refused _ => false

/-- Whether an outcome is a given refusal. -/
def refusesWith (o : Host.Outcome State Fault Refusal) (r : Refusal) : Bool :=
  match o with
  | .refused r' => r' == r
  | .next _ => false
  | .fault _ => false

/-- What a decoder answers, without the reason of a rejection. -/
def got : Except DecodeReject Instr → Option Instr
  | .ok i => some i
  | .error _ => none

/-- A draw with no poll due. -/
def idleDraws : Draws := ⟨0x01#8, 0x00#8, none, none⟩

/-! ## WellFormed -/

theorem test_wellFormed_init : (Instr.init 0x17#8).wellFormed = true := by decide

/-- An ignored bit that is not written as zero (R108, R109 (f)). -/
theorem test_wellFormed_refuses_init_bit7 : (Instr.init 0x97#8).wellFormed = false := by decide

/-! ## Decoding: words written out from 30_encoding.md -/

theorem test_decode_idle :
    [0b0000001, 0b0010000, 0b0000100].map (decodeTableWord 8) =
      [some .tIdleStart, some .tIdleAbort, some .tIdleRecover] := by decide

theorem test_decode_start :
    [0b0100010, 0b0100100, 0b0101000].map (decodeTableWord 8) =
      [some .tStartWrite, some .tStartRead, some .tStartFault] := by decide

theorem test_decode_write :
    [0b1000010, 0b1001000, 0b1000001, 0b1000100, 0b1010000].map (decodeTableWord 8) =
      [some .tWriteRx, some .tWriteStop, some .tWriteRestart, some .tWriteRdreq, some .tWriteRecover] := by decide

theorem test_decode_read :
    [0b1100100, 0b1101000, 0b1100001].map (decodeTableWord 8) =
      [some .tReadReq, some .tReadStop, some .tReadRecover] := by decide

theorem test_decode_events :
    [0b00000000101, 0b00110101010, 0b01000000000, 0b01111111111, 0b10000000000, 0b10100000000].map
        (decodeTableWord 16) =
      [some (.receiveAddr 0x05#8), some (.receiveData 0xAA#8), some .request, some .request, some .finish,
        some .finish] := by decide

theorem test_decode_event_refused : decodeTableWord 16 0b11000000000 = none := by decide

theorem test_decode_local_low :
    [0x01700, 0x10000, 0x20000, 0x30480, 0x40500, 0x50610, 0x60400].map (decodeTableWord 24) =
      [some (.init 0x17#8), some .deinit, some .tip, some (.regwr 0x04#8 0x80#8), some (.lpRead 0x05#8),
        some (.lpStore 0x06#8 0x10#8), some (.lpModtest 0x04#8)] := by decide

theorem test_decode_local_high :
    [0x70400, 0x80000, 0x90000, 0xA0001, 0xB0001, 0xC0000].map (decodeTableWord 24) =
      [some (.lpModclr 0x04#8), some .arbSetTarget, some .arbResolve, some (.setCrashDebug 0x01#8),
        some (.setResetAttempted 0x01#8), some .getResetAllowed] := by decide

/-- V-P23. -/
theorem test_decode_local_refused : [0xD0000, 0xE0000, 0xF0000].map (decodeTableWord 24) = [none, none, none] := by
  decide

/-- The decode table of 95_test_vectors.md section 2.1: the branch of every nonzero `COND`, 1 to 31. -/
def decoded (p : CondPolicy) (f : Fsm) : List (Option Instr) :=
  (List.range 31).map (fun k => got (decodeBranch p (f.code ++ BitVec.ofNat 5 (k + 1))))

def codeIS : Option Instr := some .tIdleStart
def codeIA : Option Instr := some .tIdleAbort
def codeIR : Option Instr := some .tIdleRecover
def codeSW : Option Instr := some .tStartWrite
def codeSR : Option Instr := some .tStartRead
def codeSF : Option Instr := some .tStartFault
def codeWX : Option Instr := some .tWriteRx
def codeWS : Option Instr := some .tWriteStop
def codeWT : Option Instr := some .tWriteRestart
def codeWQ : Option Instr := some .tWriteRdreq
def codeWR : Option Instr := some .tWriteRecover
def codeRQ : Option Instr := some .tReadReq
def codeRS : Option Instr := some .tReadStop
def codeRR : Option Instr := some .tReadRecover

theorem test_table_priority_idle :
    decoded .priority .idle =
      [codeIS, codeIR, codeIS, codeIR, codeIS, codeIR, codeIS, codeIR, codeIS, codeIR, codeIS, codeIR, codeIS, codeIR,
        codeIS] ++
      [codeIA, codeIS, codeIA, codeIS, codeIA, codeIS, codeIA, codeIS, codeIA, codeIS, codeIA, codeIS, codeIA, codeIS,
        codeIA, codeIS] := by decide

theorem test_table_priority_start :
    decoded .priority .start =
      [codeSF, codeSW, codeSW, codeSR, codeSR, codeSW, codeSW, codeSF, codeSF, codeSW, codeSW, codeSR, codeSR, codeSW,
        codeSW] ++
      [codeSF, codeSF, codeSW, codeSW, codeSR, codeSR, codeSW, codeSW, codeSF, codeSF, codeSW, codeSW, codeSR, codeSR,
        codeSW, codeSW] := by decide

theorem test_table_priority_write :
    decoded .priority .write =
      [codeWT, codeWX, codeWX, codeWQ, codeWT, codeWX, codeWX, codeWS, codeWS, codeWX, codeWX, codeWS, codeWS, codeWX,
        codeWX] ++
      [codeWR, codeWT, codeWX, codeWX, codeWQ, codeWT, codeWX, codeWX, codeWS, codeWS, codeWX, codeWX, codeWS, codeWS,
        codeWX, codeWX] := by decide

theorem test_table_priority_read :
    decoded .priority .read =
      [codeRR, codeRR, codeRR, codeRQ, codeRQ, codeRQ, codeRQ, codeRS, codeRS, codeRS, codeRS, codeRQ, codeRQ, codeRQ,
        codeRQ] ++
      [codeRR, codeRR, codeRR, codeRR, codeRQ, codeRQ, codeRQ, codeRQ, codeRS, codeRS, codeRS, codeRS, codeRQ, codeRQ,
        codeRQ, codeRQ] := by decide

theorem test_table_strict_idle :
    decoded .strict .idle =
      [codeIS, codeIR, codeIR, codeIR, codeIR, codeIR, codeIR, codeIR, codeIR, codeIR, codeIR, codeIR, codeIR, codeIR,
        codeIR, codeIA, codeIS] ++ List.replicate 14 codeIR := by decide

theorem test_table_strict_start :
    decoded .strict .start =
      [codeSF, codeSW, codeSF, codeSR, codeSF, codeSW, codeSF, codeSF, codeSF, codeSF, codeSF, codeSF, codeSF, codeSF,
        codeSF, codeSF, codeSF] ++ List.replicate 14 codeSF := by decide

theorem test_table_strict_write :
    decoded .strict .write =
      [codeWT, codeWX, codeWX, codeWQ, codeWT, codeWX, codeWX, codeWS, codeWS, codeWX, codeWX, codeWS, codeWS, codeWX,
        codeWX, codeWR, codeWR] ++ List.replicate 14 codeWR := by decide

theorem test_table_strict_read :
    decoded .strict .read =
      [codeRR, codeRR, codeRR, codeRQ, codeRR, codeRR, codeRR, codeRS, codeRR, codeRR, codeRR, codeRQ, codeRR, codeRR,
        codeRR, codeRR, codeRR] ++ List.replicate 14 codeRR := by decide

/-- R105: "The rows that are not fall-through rows are mutually exclusive": no two of them share a word. -/
theorem test_branch_rows_exclusive :
    (branchRows.filter (fun r => r.mask != 0x60#7)).Pairwise
      (fun r q => r.pattern &&& q.mask &&& r.mask ≠ q.pattern &&& r.mask &&& q.mask) := by decide

/-! ## One step of each branch (95_test_vectors.md section 2.2), with the schedule run out -/

/-- V-B2. -/
theorem test_vb2_idle_start :
    nextHas (step (seen .idle ⟨true, false, false, true⟩ [])) (fun t => t.fsm == .start && t.cond == 0b10000#5) := by
  decide

/-- V-B4. -/
theorem test_vb4_idle_abort :
    nextHas (step (seen .idle ⟨false, false, true, true⟩ [])) (fun t => t.fsm == .idle && t.cond == 0b01000#5) := by
  decide

/-- V-B5. -/
theorem test_vb5_idle_recover :
    nextHas (step (seen .idle (only .rr) [])) (fun t => t.txlog == [0xFF#8] && t.cond == 0#5 && t.fsm == .idle) := by
  decide

/-- V-B7: one byte is popped, the other makes a further recovery. -/
theorem test_vb7_idle_recover_pops_one :
    nextHas (step (seen .idle quiet [0x42#8, 0x43#8])) (fun t => t.rxq == [0x43#8] && t.reg 0x42#8 == 0#8) := by decide

/-- V-B10. -/
theorem test_vb10_start_write :
    nextHas (step (seen .start (only .rr) [0x05#8]))
      (fun t => t.fsm == .write && t.rxq == [0x05#8] && t.pend == only .rr) := by decide

/-- V-B9. -/
theorem test_vb9_start_read :
    nextHas (step (seen .start (only .rr) [])) (fun t => t.fsm == .read && t.cond == 0b00100#5) := by decide

/-- V-B11: no FINISH, `wip` unchanged. -/
theorem test_vb11_start_fault :
    nextHas (step { seen .start (only .sp) [] with writeInProgress := true })
      (fun t => t.fsm == .idle && t.cond == 0#5 && t.writeInProgress) := by decide

/-- V-B13. -/
theorem test_vb13_write_rx_address :
    nextHas (step { seen .write quiet [0x05#8] with cursor := 0x33#8 })
      (fun t => t.cursor == 0x05#8 && t.writeInProgress && t.rxq == [] && t.modified == 0#256) := by decide

/-- V-B15: the byte is stored before the stop is looked at. -/
theorem test_vb15_write_rx_data :
    nextHas (step { seen .write (only .sp) [0xAA#8] with cursor := 0x14#8, writeInProgress := true })
      (fun t => t.reg 0x14#8 == 0xAA#8 && t.dirty 0x14#8 && t.cursor == 0x15#8 && t.cond == 0b01000#5) := by decide

/-- V-B17. -/
theorem test_vb17_write_stop :
    nextHas (step { seen .write ⟨true, false, true, false⟩ [] with writeInProgress := true })
      (fun t => t.fsm == .idle && !t.writeInProgress && t.cond == 0b00001#5) := by decide

/-- V-B19. -/
theorem test_vb19_write_restart :
    nextHas (step { seen .write ⟨true, true, false, false⟩ [] with writeInProgress := true })
      (fun t => t.fsm == .read && t.cond == 0b00100#5) := by decide

/-- V-B20. -/
theorem test_vb20_write_rdreq :
    nextHas (step { seen .write (only .rr) [] with writeInProgress := true })
      (fun t => t.fsm == .read && t.cond == 0b00100#5 && t.writeInProgress) := by decide

/-- V-B21. -/
theorem test_vb21_write_recover :
    nextHas (step { seen .write (only .ab) [] with writeInProgress := true })
      (fun t => t.fsm == .idle && t.cond == 0#5 && t.writeInProgress) := by decide

/-- V-B22. -/
theorem test_vb22_read_req :
    nextHas (step { seen .read (only .rr) [] with writeInProgress := true })
      (fun t => t.txlog == [0x01#8] && t.cursor == 0x01#8 && !t.writeInProgress && t.cond == 0#5) := by decide

/-- V-B27. -/
theorem test_vb27_read_req_priority :
    nextHas (step { seen .read ⟨false, true, false, true⟩ [] with cursor := 0x01#8 })
      (fun t => t.fsm == .read && t.cursor == 0x02#8 && t.txlog == [0x00#8] && t.cond == 0b10000#5) := by decide

/-- V-B28. -/
theorem test_vb28_read_recover_strict :
    nextHas (step { seenStrict .read ⟨false, true, false, true⟩ [] with cursor := 0x01#8 })
      (fun t => t.fsm == .idle && t.cursor == 0x01#8 && t.txlog == [0xFF#8] && t.cond == 0#5) := by decide

/-- V-B24. -/
theorem test_vb24_read_stop :
    nextHas (step { seen .read (only .sp) [] with writeInProgress := true, cursor := 0x16#8 })
      (fun t => t.fsm == .idle && !t.writeInProgress && t.cond == 0#5 && t.cursor == 0x16#8) := by decide

/-- V-B26. -/
theorem test_vb26_read_recover :
    nextHas (step (seen .read quiet [0x15#8])) (fun t => t.rxq == [] && t.fsm == .idle && t.registers == []) := by decide

/-- V-B30, V-B31: no engine step exists. -/
theorem test_vb30_no_step :
    step (seen .write quiet []) = .next (seen .write quiet []) ∧
      step { State.reset with pend := only .sd } = .next { State.reset with pend := only .sd } := ⟨rfl, rfl⟩

/-! ## Slave events (95_test_vectors.md section 2.3) -/

/-- V-C2: a read-only address as cursor is accepted. -/
theorem test_vc2_receive_addr :
    nextHas (exec (.receiveAddr 0x00#8) { ready with cursor := 0x33#8 })
      (fun t => t.cursor == 0x00#8 && t.writeInProgress && t.registers == [] && t.modified == 0#256) := by decide

/-- V-C6: a read-only address is skipped. -/
theorem test_vc6_receive_data_read_only :
    nextHas (exec (.receiveData 0xFF#8) { ready with cursor := 0x08#8, writeInProgress := true })
      (fun t => t.reg 0x08#8 == 0x00#8 && !t.dirty 0x08#8 && t.cursor == 0x09#8) := by decide

/-- V-C8: the cursor wraps. -/
theorem test_vc8_receive_data_wraps :
    nextHas (exec (.receiveData 0x22#8) { ready with cursor := 0xFF#8, writeInProgress := true })
      (fun t => t.reg 0xFF#8 == 0x22#8 && t.dirty 0xFF#8 && t.cursor == 0x00#8) := by decide

/-- V-C10. -/
theorem test_vc10_request :
    nextHas (exec .request { ready with cursor := 0x54#8, writeInProgress := true })
      (fun t => t.eventData == some 0xE6#8 && t.cursor == 0x55#8 && !t.writeInProgress) := by decide

/-- V-C13: the acknowledge. -/
theorem test_vc13_request_acknowledges :
    nextHas (exec .request { ready with
        registers := [(0x08, 0x04#8), (0x09, 0x01#8)], cursor := 0x09#8, target := true, current := true })
      (fun t => t.eventData == some 0x01#8 && t.registers == [] && !t.target && t.clearPending && t.current
        && t.cursor == 0x0A#8 && t.modified == 0#256) := by decide

/-- V-C15. -/
theorem test_vc15_finish :
    nextHas (exec .finish { ready with cursor := 0x16#8, writeInProgress := true })
      (fun t => !t.writeInProgress && t.cursor == 0x16#8) := by decide

/-! ## The local port (95_test_vectors.md section 2.7) -/

/-- V-P1. -/
theorem test_vp1_init :
    nextHas (exec (.init 0x17#8) { State.reset with pend := only .sd, rxq := [0x01#8] }) (fun t => t == ready) := by decide

/-- V-P2, V-P4. -/
theorem test_vp2_init_refused :
    refusesWith (exec (.init 0x17#8) ready) .initWhileEnabled &&
      refusesWith (exec .deinit (seen .write quiet [])) .deinitInTransaction := by decide

/-- V-P3. -/
theorem test_vp3_deinit : nextHas (exec .deinit ready) (fun t => !t.enabled) := by decide

/-- V-P5. -/
theorem test_vp5_tip :
    nextHas (exec .tip ready) (fun t => t.readData == some 0x00#8) &&
      nextHas (exec .tip (seen .start quiet [])) (fun t => t.readData == some 0x01#8) := by decide

/-- V-P6. -/
theorem test_vp6_regwr :
    nextHas (exec (.regwr 0x04#8 0x80#8) ready)
      (fun t => t.reg 0x04#8 == 0x80#8 && t.dirty 0x04#8 && t.cursor == 0x00#8) := by decide

/-- V-P7. -/
theorem test_vp7_regwr_read_only : nextHas (exec (.regwr 0x00#8 0x55#8) ready) (fun t => t == ready) := by decide

/-- V-P10: a local read at `A_INT2` is no acknowledge. -/
theorem test_vp10_lpRead :
    nextHas (exec (.lpRead 0x09#8) { ready with registers := [(0x08, 0x04#8), (0x09, 0x01#8)], target := true })
      (fun t => t.readData == some 0x01#8 && t.registers == [(0x08, 0x04#8), (0x09, 0x01#8)] && t.target) := by decide

/-- V-P11. -/
theorem test_vp11_lpStore :
    nextHas (exec (.lpStore 0x06#8 0x10#8) ready) (fun t => t.reg 0x06#8 == 0x10#8 && t.modified == 0#256) := by decide

/-- V-P12. -/
theorem test_vp12_lpModtest :
    nextHas (exec (.lpModtest 0x04#8) { ready with modified := BitVec.twoPow 256 4 })
        (fun t => t.readData == some 0x01#8) &&
      nextHas (exec (.lpModtest 0x05#8) { ready with modified := BitVec.twoPow 256 4 })
        (fun t => t.readData == some 0x00#8) := by decide

/-- V-P13. -/
theorem test_vp13_lpModclr :
    nextHas (exec (.lpModclr 0x04#8) { ready with registers := [(0x04, 0x80#8)], modified := BitVec.twoPow 256 4 })
      (fun t => t.modified == 0#256 && t.reg 0x04#8 == 0x80#8) := by decide

/-- V-P14. -/
theorem test_vp14_arbSetTarget :
    nextHas (exec .arbSetTarget ready) (fun t => t.target && !t.current && t.emitted == []) := by decide

/-- V-P15. -/
theorem test_vp15_arbResolve :
    nextHas (exec .arbResolve { ready with target := true }) (fun t => t.current && t.emitted == [.line true]) := by
  decide

/-- V-P18: `clear_pending` outranks `target`. -/
theorem test_vp18_arbResolve :
    nextHas (exec .arbResolve { ready with target := true, current := true, clearPending := true })
      (fun t => !t.current && !t.clearPending && t.target && t.emitted == [.line false]) := by decide

/-- V-P20. -/
theorem test_vp20_setCrashDebug :
    nextHas (exec (.setCrashDebug 0x01#8) ready) (fun t => t.reg 0x5D#8 == 0x01#8 && t.modified == 0#256) := by decide

/-- V-P21. -/
theorem test_vp21_setResetAttempted :
    nextHas (exec (.setResetAttempted 0x01#8) ready) (fun t => t.reg 0x5F#8 == 0x01#8 && t.modified == 0#256) := by
  decide

/-- V-P22. -/
theorem test_vp22_getResetAllowed :
    nextHas (exec .getResetAllowed ready) (fun t => t.readData == some 0x01#8) &&
      nextHas (exec .getResetAllowed { ready with registers := [(0x5E, 0x01#8)] })
        (fun t => t.readData == some 0x00#8) := by decide

/-! ## The Dispatcher and the handlers (95_test_vectors.md section 2.8) -/

/-- V-D4: a pixel word is little-endian. -/
theorem test_vd4_led_push :
    ({ ready with registers := [(0x65, 0x11#8), (0x66, 0x22#8), (0x67, 0x33#8), (0x68, 0x44#8)] } : State).ledOutputs
      0x01#8 = [.ledPushWord 0x44332211#32] := by decide

/-- S6: the FPGA byte 0x01. -/
theorem test_s6_fpga : fpgaOutputs 0x01#8 = [.fpgaReset true, .fpgaLoopback false] := by decide

/-- R235, under a configuration that gives `IR_SENTINEL` a value: each 16-bit value has the byte low and its complement
high. Another value does nothing. -/
theorem test_ir_trigger :
    let s : State := { ready with
      config := { Config.ref with irSentinel := some 0x55#8 }
      registers := [(Config.ref.map.irAddress.toNat, 0x10#8), (Config.ref.map.irCommand.toNat, 0x0F#8)] }
    (s.handler s.config.map.irTrigger 0x55#8).emitted = [.irTransmit 0xEF10#16 0xF00F#16] ∧
      s.handler s.config.map.irTrigger 0x54#8 = s := by decide

/-- V-D5: the first sample goes to channel 0, low byte first. -/
theorem test_vd5_adc :
    (State.passRun 3 { ready with passInProgress := some ⟨idleDraws, .storeCharging ⟨true, 0x1234#16⟩⟩ }).registers =
      [(0x0B, 0x34#8), (0x0C, 0x12#8), (0x5C, 0x01#8)] := by decide

/-- V-D6: the status mirror overwrites the host. -/
theorem test_vd6_mirror :
    (State.passRun 2 { ready with
      registers := [(0x11, 0xFF#8)], passInProgress := some ⟨idleDraws, .mirrorUsb⟩ }).registers =
      [(0x11, 0x01#8)] := by decide

/-! ## Witnesses: states and operands that meet the hypotheses of each obligation, clause by clause -/

/-- O4, one state for each of the fourteen branches. -/
theorem test_witness_priority :
    [(seen .idle ⟨true, true, true, true⟩ [0#8], Instr.tIdleStart), (seen .idle ⟨false, true, true, true⟩ [], .tIdleAbort),
      (seen .idle (only .sp) [], .tIdleRecover), (seen .start ⟨true, true, true, true⟩ [0#8], .tStartWrite),
      (seen .start ⟨true, true, true, true⟩ [], .tStartRead), (seen .start ⟨true, false, true, true⟩ [], .tStartFault),
      (seen .write ⟨true, true, true, true⟩ [0#8], .tWriteRx), (seen .write ⟨true, true, true, true⟩ [], .tWriteStop),
      (seen .write ⟨true, true, false, true⟩ [], .tWriteRestart),
      (seen .write ⟨false, true, false, true⟩ [], .tWriteRdreq), (seen .write (only .ab) [], .tWriteRecover),
      (seen .read ⟨true, true, true, true⟩ [0#8], .tReadReq), (seen .read ⟨true, false, true, true⟩ [0#8], .tReadStop),
      (seen .read ⟨true, false, false, true⟩ [0#8], .tReadRecover)].all (fun x =>
        x.1.config.condPolicy == .priority && x.1.cond != 0#5
          && got (decodeBranch x.1.config.condPolicy x.1.selector) == some x.2) = true := by decide

/-- O5, one state for each of the fourteen branches, the recovery rows with a handled condition pending too. -/
theorem test_witness_strict :
    [(seenStrict .idle ⟨true, true, false, false⟩ [], Instr.tIdleRecover),
      (seenStrict .idle ⟨true, false, false, true⟩ [], .tIdleStart), (seenStrict .idle (only .ab) [], .tIdleAbort),
      (seenStrict .start (only .ab) [0#8], .tStartFault), (seenStrict .start (only .rr) [0#8], .tStartWrite),
      (seenStrict .start (only .rr) [], .tStartRead), (seenStrict .write ⟨false, false, true, true⟩ [], .tWriteRecover),
      (seenStrict .write ⟨true, true, true, false⟩ [0#8], .tWriteRx),
      (seenStrict .write ⟨true, true, true, false⟩ [], .tWriteStop),
      (seenStrict .write ⟨true, true, false, false⟩ [], .tWriteRestart), (seenStrict .write (only .rr) [], .tWriteRdreq),
      (seenStrict .read (only .rr) [0#8], .tReadRecover), (seenStrict .read ⟨false, true, true, false⟩ [], .tReadReq),
      (seenStrict .read (only .sp) [], .tReadStop)].all (fun x =>
        x.1.config.condPolicy == .strict && x.1.cond != 0#5
          && got (decodeBranch x.1.config.condPolicy x.1.selector) == some x.2) = true := by decide

/-- O6, O33: a state with an engine step, and two without. -/
theorem test_witness_engine_turn :
    ((seen .idle (only .sd) []).enabled = true ∧ (seen .idle (only .sd) []).cond ≠ 0#5) ∧
      State.reset.enabled = false ∧ ready.cond = 0#5 := by decide

/-- O7, clause by clause. -/
theorem test_witness_step_runs :
    ((seen .idle (only .sd) []).halted = false ∧ (seen .idle (only .sd) []).schedule = [] ∧
      (seen .idle (only .sd) []).enabled = true ∧ (seen .idle (only .sd) []).cond ≠ 0#5 ∧
      got (decodeBranch (seen .idle (only .sd) []).config.condPolicy (seen .idle (only .sd) []).selector) =
        some .tIdleStart) ∧
    ({ seen .idle (only .sd) [] with schedule := [.engine, .poll] } : State).schedule = .engine :: [.poll] ∧
    (let s := seen .write quiet [0x05#8, 0x06#8]
    s.rxq = 0x05#8 :: [0x06#8] ∧
      got (decodeEvent ((0#2 ++ BitVec.ofBool s.writeInProgress) ++ 0x05#8)) = some (.receiveAddr 0x05#8)) ∧
    ready.passInProgress = none ∧ got (decodeLocal 0x20000#20) = some .tip := by decide

/-- O8: the widest word of each format that decodes. -/
theorem test_witness_placed_word :
    ready.config.condPolicy = .priority ∧ decodeTableWord 8 127 = some .tReadReq ∧
      decodeTableWord 8 0 = some .tIdleRecover ∧
      decodeTableWord 16 0x5FF = some .finish ∧ decodeTableWord 24 0xCFFFF = some .getResetAllowed := by decide

/-- O9. -/
theorem test_witness_halted : ({ ready with halted := true } : State).halted = true := by decide

/-- O10: a raise, a push with room, a push on a full queue of depth 1. -/
theorem test_witness_environment :
    ready.halted = false ∧
    ({ ready with schedule := [.raise .ab] } : State).schedule = .raise .ab :: [] ∧
    ({ ready with schedule := [.push 0xFF#8] } : State).schedule = .push 0xFF#8 :: [] ∧ ready.config.rxDepth = none ∧
    (let s : State := { ready with
      config := { Config.ref with rxDepth := some 1 }, rxq := [0x00#8], schedule := [.push 0xFF#8] }
    s.halted = false ∧ s.config.rxDepth = some 1 ∧ 1 ≤ s.rxq.length) := by decide

/-- O11. -/
theorem test_witness_local_waits :
    let s : State := { ready with
      passInProgress := some ⟨idleDraws, .line⟩, schedule := [.localOp 0xC0000#20] }
    s.halted = false ∧ s.passInProgress = some ⟨idleDraws, .line⟩ ∧ s.schedule = .localOp 0xC0000#20 :: [] := by decide

/-- O13, the address phase and the data phase at the last address. -/
theorem test_witness_write_rx :
    ((seen .write quiet [0x05#8]).rxq = 0x05#8 :: [] ∧ (seen .write quiet [0x05#8]).writeInProgress = false) ∧
    (let s : State := { seen .write quiet [0x05#8] with writeInProgress := true, cursor := 0xFF#8 }
    s.rxq = 0x05#8 :: [] ∧ s.writeInProgress = true ∧ s.ro s.cursor = false) := by decide

/-- O14. -/
theorem test_witness_empty_queue : (seen .write (only .sp) []).rxq = [] := by decide

/-- O21, O22. -/
theorem test_witness_init_deinit :
    State.reset.enabled = false ∧ ready.enabled = true ∧ ready.fsm = .idle ∧
      ((seen .read quiet []).enabled = true ∧ (seen .read quiet []).fsm ≠ .idle) := by decide

/-- O27, the three arms of `ARB_RESOLVE`. -/
theorem test_witness_arbitration :
    ({ ready with clearPending := true } : State).clearPending = true ∧
    (ready.clearPending = false ∧ ({ ready with target := true } : State).target ≠ ready.current) ∧
    ready.target = ready.current := by decide

/-- A state in the middle of a write meets the invariant. -/
theorem test_witness_invariant :
    ({ seen .write quiet [0xAA#8] with
      registers := [(0x14, 0xAA#8)], modified := BitVec.twoPow 256 0x14, cursor := 0x15#8
      writeInProgress := true } : State).Inv :=
  ⟨by decide, by decide, by decide, by decide, fun _ h => by cases h⟩

/-- O31, O33, O34: a step from a state that meets the invariant. -/
theorem test_witness_step_keeps :
    ∃ s t : State, s.Inv ∧ step s = .next t ∧ s.cond ≠ 0#5 :=
  ⟨{ seen .write quiet [0xAA#8] with writeInProgress := true, cursor := 0x14#8 }, _,
    ⟨by decide, by decide, by decide, by decide, fun _ h => by cases h⟩, rfl, by decide⟩

/-- O32, at the first REQUEST of a read: `wip` is still true before it and false after it. -/
theorem test_witness_address_phase :
    ∃ s t : State, s.Inv ∧ s.addressPhaseSound ∧ step s = .next t ∧ t.recoveries = s.recoveries ∧
      s.fsm = .read ∧ s.writeInProgress = true ∧ t.writeInProgress = false :=
  ⟨{ seen .read (only .rr) [] with writeInProgress := true }, _,
    ⟨by decide, by decide, by decide, by decide, fun _ h => by cases h⟩,
    fun _ => .inr rfl, rfl, rfl, rfl, rfl, rfl⟩

/-- O32, second clause: a later REQUEST of the same read. -/
theorem test_witness_address_phase_later :
    ∃ s t : State, s.Inv ∧ s.addressPhaseSound ∧ step s = .next t ∧ t.recoveries = s.recoveries ∧
      s.fsm = .read ∧ s.writeInProgress = false ∧ t.fsm = .read :=
  ⟨seen .read (only .rr) [], _,
    ⟨by decide, by decide, by decide, by decide, fun _ h => by cases h⟩,
    fun h => by (cases h), rfl, rfl, rfl, rfl, rfl⟩

/-- O33, second clause: `IDLE` is left. -/
theorem test_witness_leaves_idle :
    ∃ s t : State, step s = .next t ∧ s.fsm = .idle ∧ t.fsm ≠ .idle :=
  ⟨seen .idle (only .sd) [], _, rfl, rfl, by decide⟩

/-- O35: a dirty bit that is set, one that is cleared, and one that a pass clears. -/
theorem test_witness_dirty :
    (∃ s t : State, exec (.regwr 0x04#8 0x80#8) s = .next t ∧ s.dirty 0x04#8 = false ∧ t.dirty 0x04#8 = true) ∧
    (∃ s t : State, exec (.lpModclr 0x04#8) s = .next t ∧ s.dirty 0x04#8 = true ∧ t.dirty 0x04#8 = false) ∧
    ∃ s : State, s.dirty 0x04#8 = true ∧ s.passStep.dirty 0x04#8 = false :=
  ⟨⟨ready, _, rfl, by decide, by decide⟩,
    ⟨{ ready with modified := BitVec.twoPow 256 4 }, _, rfl, by decide, by decide⟩,
    ⟨{ ready with modified := BitVec.twoPow 256 4, passInProgress := some ⟨idleDraws, .modClear 0x04#8⟩ },
      by decide, by decide⟩⟩

/-- O36: the acknowledge changes the cursor and three control bits at once. -/
theorem test_witness_control_bits_request :
    ∃ s t : State, exec .request s = .next t ∧ t.cursor ≠ s.cursor ∧
      s.writeInProgress = true ∧ t.writeInProgress = false ∧ s.target = true ∧ t.target = false ∧
      s.clearPending = false ∧ t.clearPending = true :=
  ⟨{ ready with cursor := 0x09#8, writeInProgress := true, target := true }, _, rfl, by decide, rfl, rfl, rfl,
    by decide, rfl, by decide⟩

/-- O36: `ARB_RESOLVE` changes `current` and clears `clear_pending`. -/
theorem test_witness_control_bits_resolve :
    ∃ s t : State, exec .arbResolve s = .next t ∧ t.current ≠ s.current ∧
      s.clearPending = true ∧ t.clearPending = false :=
  ⟨{ ready with current := true, clearPending := true }, _, rfl, by decide, rfl, by decide⟩

/-- O36: `target` and `wip` are set. -/
theorem test_witness_control_bits_set :
    (∃ s t : State, exec .arbSetTarget s = .next t ∧ s.target = false ∧ t.target = true) ∧
      ∃ s t : State, exec (.receiveAddr 0x05#8) s = .next t ∧ s.writeInProgress = false ∧ t.writeInProgress = true :=
  ⟨⟨ready, _, rfl, rfl, rfl⟩, ⟨ready, _, rfl, rfl, rfl⟩⟩

/-- O37: two states that differ in a dirty bit and in `target`. -/
theorem test_witness_same_for_engine :
    ∃ s s' t : State, s.sameForEngine s' ∧ s ≠ s' ∧ engineTurn s = .next t :=
  ⟨seen .idle (only .sd) [], { seen .idle (only .sd) [] with target := true, modified := BitVec.twoPow 256 4 }, _,
    rfl, by decide, rfl⟩

/-- O38: the acknowledge at a read-only address, and a dropped write. -/
theorem test_witness_read_only :
    (∃ s t : State, engineTurn s = .next t ∧ s.ro 0x09#8 = true ∧ t.reg 0x09#8 ≠ s.reg 0x09#8) ∧
      ∃ s t : State, engineTurn s = .next t ∧ s.ro s.cursor = true ∧ t.registers = s.registers :=
  ⟨⟨{ seen .read (only .rr) [] with registers := [(0x09, 0x01#8)], cursor := 0x09#8 }, _, rfl, by decide, by decide⟩,
    ⟨{ seen .write quiet [0xAA#8] with writeInProgress := true }, _, rfl, by decide, rfl⟩⟩

/-- O39. -/
theorem test_witness_progress :
    ∃ s t : State, s.enabled = true ∧ s.cond ≠ 0#5 ∧ engineTurn s = .next t :=
  ⟨seen .idle (only .ab) [], _, rfl, by decide, rfl⟩

/-- O40, O41, O42: the engine alone, with a read-request pending. -/
theorem test_witness_engine_alone :
    (seen .start ⟨true, true, true, true⟩ [0x00#8]).engineAlone ∧
      (seen .start ⟨true, true, true, true⟩ [0x00#8]).pend.rr = true := ⟨⟨rfl, rfl, rfl⟩, rfl⟩

/-- O43: three queued bytes, offered to 0xFF, to the read-only 0x00 and to 0x01. -/
theorem test_witness_data_bytes :
    let s : State := { seen .write quiet [0x11#8, 0x22#8, 0x33#8] with writeInProgress := true, cursor := 0xFF#8 }
    s.halted = false ∧ s.enabled = true ∧ s.schedule = [] ∧ s.fsm = .write ∧ s.writeInProgress = true ∧
      (s.config.condPolicy = .strict → s.pend.ab = false) ∧ s.rxq.length = 3 ∧
      s.ro (s.cursor + BitVec.ofNat 8 0) = false ∧ s.ro (s.cursor + BitVec.ofNat 8 1) = true ∧
      s.ro (s.cursor + BitVec.ofNat 8 2) = false := by decide

/-- O44, three requests that pass over `A_INT2`. -/
theorem test_witness_requests :
    let s : State := { seen .read quiet [] with
      cursor := 0x08#8, schedule := [.raise .rr, .engine, .raise .rr, .engine, .raise .rr, .engine] }
    s.halted = false ∧ s.enabled = true ∧ s.fsm = .read ∧ s.rxq = [] ∧ s.pend = ⟨false, false, false, false⟩ ∧
      s.schedule = (List.replicate 3 [Turn.raise .rr, Turn.engine]).flatten := by decide

/-- O29: a combined write and read, all of the write's moves made before the engine runs. -/
theorem test_witness_conforming :
    let x : Transaction := .writeRead 0x14#8 [0xA1#8] true 1
    let ts : List Turn := [.raise .sd, .push 0x14#8, .push 0xA1#8, .raise .sd, .raise .rr] ++
      List.replicate 6 .engine ++ [.raise .sp, .engine]
    ready.halted = false ∧ ready.enabled = true ∧ ready.fsm = .idle ∧ ready.cond = 0#5 ∧
      ready.config.condPolicy = .priority ∧ x.legal = true ∧ ts.filter (fun u => u != .engine) = x.moves ∧
      conformingRun ts.length true { ready with schedule := ts } = true := by decide

/-- O29: the run of that schedule answers a state with nothing pending. -/
theorem test_witness_conforming_ends :
    nextHas (Sys2Proof.core.run 13 { ready with
      schedule := [.raise .sd, .push 0x14#8, .push 0xA1#8, .raise .sd, .raise .rr] ++ List.replicate 6 .engine ++
        [.raise .sp, .engine] }) (fun t => t.cond == 0#5 && t.txlog == [0x00#8] && t.cursor == 0x16#8) := by decide

/-- R106: the polling context may run between the moves of a conforming master (log 33); an abort is no move of it, nor is
a move while a read-request is pending. -/
theorem test_conforming_turns :
    conformingRun 4 true { ready with schedule := [.raise .sd, .pass idleDraws, .localOp 0x20000#20, .engine] } = true ∧
      conformingTurn false ready (.raise .ab) = false ∧
      conformingTurn false (seen .read (only .rr) []) (.raise .sp) = false := by decide

/-- O45, its second clause on a schedule of its own; a stop made at once after the read-request is not prompt. -/
theorem test_witness_prompt :
    let x : Transaction := .read 1
    let ts : List Turn := [.raise .sd, .engine, .raise .rr, .engine, .engine, .raise .sp]
    ready.halted = false ∧ ready.enabled = true ∧ ready.fsm = .idle ∧ ready.cond = 0#5 ∧
      ready.config.condPolicy = .priority ∧ ready.config.rxDepth = none ∧ x.legal = true ∧
      ts.filter (fun u => u != .engine) = x.moves ∧ promptRun ts.length { ready with schedule := ts } = true ∧
      nextHas (Sys2Proof.core.run 7 { ready with schedule := ts }) (fun t => t.cond == 0#5) = true ∧
      promptRun 3 { ready with schedule := [.raise .sd, .engine, .raise .rr] } = true ∧
      promptRun 4 { ready with schedule := [.raise .sd, .engine, .raise .rr, .raise .sp] } = false := by decide

/-- O46. -/
theorem test_witness_stale_address_phase :
    let s : State := { seen .write (only .ab) [] with
      writeInProgress := true, cursor := 0x15#8
      schedule := [.engine, .raise .sd, .engine, .push 0x20#8, .engine, .engine] }
    s.halted = false ∧ s.enabled = true ∧ s.fsm = .write ∧ s.writeInProgress = true ∧ s.rxq = [] ∧
      s.pend = ⟨false, false, false, true⟩ ∧ s.config.rxDepth = none ∧
      s.schedule = [.engine, .raise .sd, .engine, .push 0x20#8, .engine, .engine] := by decide

/-- O47. -/
theorem test_witness_restart_in_read :
    let s : State := { seen .read (only .sd) [] with schedule := [.engine, .raise .rr, .engine] }
    s.halted = false ∧ s.enabled = true ∧ s.fsm = .read ∧ s.rxq = [] ∧ s.pend = ⟨true, false, false, false⟩ ∧
      s.schedule = [.engine, .raise .rr, .engine] := by decide

/-- O49, the closed gate, the open one, and step 1. -/
theorem test_witness_gate :
    (let s : State := { seen .write quiet [] with schedule := [.pass idleDraws] }
    s.halted = false ∧ s.passInProgress = none ∧ s.fsm ≠ .idle ∧ s.schedule = .pass idleDraws :: []) ∧
    (let s : State := { ready with schedule := [.pass idleDraws] }
    s.halted = false ∧ s.passInProgress = none ∧ s.fsm = .idle ∧ s.config.passAtomicity = .interleaved ∧
      s.schedule = .pass idleDraws :: []) ∧
    ({ ready with passInProgress := some ⟨idleDraws, .line⟩ } : State).passInProgress = some ⟨idleDraws, .line⟩ := by
  decide

/-- O50: an operation of a pass, and the micro-step that moves the round-robin index. -/
theorem test_witness_micro_step :
    (let s : State := { ready with passInProgress := some ⟨idleDraws, .modTest 0xFF#8⟩ }
    s.passInProgress = some ⟨idleDraws, .modTest 0xFF#8⟩ ∧
      passOp s idleDraws (.modTest 0xFF#8) = some (.lpModtest 0xFF#8)) ∧
    (let s : State := { ready with passInProgress := some ⟨idleDraws, .storeAdcHigh ⟨true, 0x1234#16⟩⟩ }
    s.passStep.nextChannel ≠ s.nextChannel) := by decide

/-- O51: a clean address, a dirty one, and the last one. -/
theorem test_witness_dispatch :
    (let s : State := { ready with passInProgress := some ⟨idleDraws, .modTest 0x04#8⟩ }
    s.halted = false ∧ s.passInProgress = some ⟨idleDraws, .modTest 0x04#8⟩ ∧ s.dirty 0x04#8 = false) ∧
    (let s : State := { ready with
      modified := BitVec.twoPow 256 255, passInProgress := some ⟨idleDraws, .modTest 0xFF#8⟩ }
    s.halted = false ∧ s.passInProgress = some ⟨idleDraws, .modTest 0xFF#8⟩ ∧ s.dirty 0xFF#8 = true ∧
      (s.handler 0xFF#8 (s.reg 0xFF#8)).halted = false) := by decide

/-- O52. -/
theorem test_witness_unhandled : 0x8D#8 ∉ handledAddrs ready.config := by decide

/-- O53. -/
theorem test_witness_wf : ready.config.wf = true := by decide

/-- O54, the sentinel and another value. -/
theorem test_witness_bootloader :
    ready.config.wf = true ∧ ready.halted = false ∧ (0xBD#8 : Byte) ≠ 0xBE#8 ∧
    ({ ready with passInProgress := some ⟨idleDraws, .handler ready.config.map.blTrigger 0xBE#8⟩ } : State).passInProgress
      = some ⟨idleDraws, .handler ready.config.map.blTrigger 0xBE#8⟩ := by decide

/-- O55, O56, O57: the first micro-steps of steps 3, 4 and 5. -/
theorem test_witness_polls :
    ready.config.wf = true ∧ ready.halted = false ∧
    ({ ready with passInProgress := some ⟨idleDraws, .mirrorUsb⟩ } : State).passInProgress =
      some ⟨idleDraws, .mirrorUsb⟩ ∧
    ({ ready with passInProgress := some ⟨idleDraws, .readOld1 ⟨0x04#8, 0x00#8, 0x00#8⟩⟩ } : State).passInProgress =
      some ⟨idleDraws, .readOld1 ⟨0x04#8, 0x00#8, 0x00#8⟩⟩ ∧
    ({ ready with passInProgress := some ⟨idleDraws, .storeCharging ⟨true, 0x1234#16⟩⟩ } : State).passInProgress =
      some ⟨idleDraws, .storeCharging ⟨true, 0x1234#16⟩⟩ := by decide

/-- O55, its last three clauses: both polls due, the ADC poll alone, none. -/
theorem test_witness_after_mirror :
    [((⟨0x01#8, 0x00#8, some ⟨0x04#8, 0x00#8, 0x00#8⟩, some ⟨true, 0x1234#16⟩⟩ : Draws),
        some (PassPoint.readOld1 ⟨0x04#8, 0x00#8, 0x00#8⟩)),
      (⟨0x01#8, 0x00#8, none, some ⟨true, 0x1234#16⟩⟩, some (.storeCharging ⟨true, 0x1234#16⟩)),
      (idleDraws, none)].all (fun x =>
        (State.passRun 2 { ready with passInProgress := some ⟨x.1, .mirrorUsb⟩ }).passInProgress ==
          x.2.map (Pass.mk x.1)) = true := by decide

/-- O56: a poll that sees a change, and one that sees none (`new1 = INPUT1`, `new2 = INPUT2`). -/
theorem test_witness_input_change :
    (0x04#8 : Byte) ^^^ ready.reg ready.config.map.input1 ≠ 0#8 ∧ (0x00#8 : Byte) ^^^ ready.reg ready.config.map.input1 = 0#8
    := by decide

/-- O58. -/
theorem test_witness_atomic :
    let s : State := { ready with
      config := { Config.ref with passAtomicity := .atomic }, schedule := [.pass idleDraws] }
    s.halted = false ∧ s.config.passAtomicity = .atomic ∧ s.passInProgress = none ∧
      s.schedule = .pass idleDraws :: [] := by decide

/-- O59, clause by clause: a raw store, an address byte in the WRITE state, and two dropped bytes. -/
theorem test_witness_protection :
    (∃ s t : State, exec (.lpStore 0x06#8 0x10#8) s = .next t) ∧
    (∃ s t : State, exec .tWriteRx s = .next t ∧ s.writeInProgress = false) ∧ ready.ro 0x00#8 = true ∧
    ({ ready with cursor := 0x08#8 } : State).ro 0x08#8 = true :=
  ⟨⟨ready, _, rfl⟩, ⟨seen .write quiet [0x05#8], _, rfl, rfl⟩, by decide, by decide⟩

/-- O60: a transaction in progress, none, and the engine not enabled. -/
theorem test_witness_tip :
    ((seen .start quiet []).fsm ≠ .idle ∧ ready.fsm = .idle) ∧ State.reset.Inv ∧ State.reset.enabled = false :=
  ⟨by decide, ⟨by decide, by decide, by decide, by decide, fun _ h => by cases h⟩, by decide⟩

end Sys2Proof.Tests
end

/-! # Proofs: a step runs the decoded operation, and the state after power-on -/

namespace Sys2Proof.Machine

/-! ## What the next move performs (R56, R130, R180) -/

/-- R56: only `halted` keeps a machine from taking its next move. -/
theorem step_of_not_halted {s : State} (h : s.halted = false) : step s = moveNext s := by
  simp [step, h]

/-- R130: an enabled engine with a condition pending performs the branch its selector decodes to. -/
theorem engineTurn_eq_exec {s : State} {i : Instr} (henabled : s.enabled = true) (hcond : s.cond ≠ 0#5)
    (hdec : decodeBranch s.config.condPolicy s.selector = .ok i) : engineTurn s = exec i s := by
  rw [engineTurn, if_pos ⟨henabled, hcond⟩, hdec, runDecoded_ok]

/-- R180: a local-port turn performs the operation its word decodes to. -/
theorem localTurn_eq_exec {w : BitVec 20} {i : Instr} (hdec : decodeLocal w = .ok i) (s : State) :
    localTurn w s = exec i s := by
  rw [localTurn, hdec, runDecoded_ok]

/-- R295: where the schedule has run out the engine has the turn. -/
theorem step_of_schedule_nil {s : State} (h : s.halted = false) (hs : s.schedule = []) :
    step s = engineTurn s := by
  rw [step_of_not_halted h, moveNext, hs]

theorem step_of_schedule_engine {s : State} {rest : List Turn} (h : s.halted = false)
    (hs : s.schedule = .engine :: rest) : step s = engineTurn { s with schedule := rest } := by
  rw [step_of_not_halted h, moveNext, hs]

/-- R217: a local-port operation has its turn while no pass is in progress. -/
theorem step_of_schedule_localOp {s : State} {w : BitVec 20} {rest : List Turn} (h : s.halted = false)
    (hs : s.schedule = .localOp w :: rest) (hp : s.passInProgress = none) :
    step s = localTurn w { s with schedule := rest } := by
  rw [step_of_not_halted h, moveNext, hs]
  simp [hp]

/-! ## The events inside their branches (R160) -/

/-- R107: the two RECEIVE words, told apart by `wip`. -/
theorem decodeEvent_receive (wip : Bool) (b : Byte) :
    decodeEvent (eventWord 0#2 wip b) = .ok (if wip then .receiveData b else .receiveAddr b) := by
  have hmask := eventWord_masked 0#2 wip b 0x700#11 (by decide)
  rw [decodeEvent, hmask, eventWord_data]
  cases wip <;> rfl

/-- RECEIVE alone is RECEIVE inside its branch, with `eventData` cleared. -/
theorem exec_receive (s : State) (b : Byte) :
    exec (if s.writeInProgress then .receiveData b else .receiveAddr b) s =
      .next ((s.receive b).setEventData none) := by
  unfold State.receive
  cases s.writeInProgress <;> rfl

@[simp] theorem State.receive_eventData (s : State) (b : Byte) : (s.receive b).eventData = s.eventData := by
  unfold State.receive
  split
  · rw [State.receiveData_eq]
  · rfl

/-- Putting back the old result field undoes `setEventData`. -/
theorem State.setEventData_restore {s : State} {e : Option Byte} (h : s.eventData = e) (r : Option Byte) :
    { s.setEventData r with eventData := e } = s := by
  subst h
  rfl

@[simp] theorem State.request_eventData (s : State) : s.request.eventData = s.eventData := by
  rw [State.request_eq]

@[simp] theorem State.request_txlog (s : State) : s.request.txlog = s.txlog := by
  rw [State.request_eq]

@[simp] theorem State.request_pend (s : State) : s.request.pend = s.pend := by
  rw [State.request_eq]

/-- R137, R161, R162: `T_WRITE_RX` performs the event that the oldest byte and `wip` decode to, on the queue without
that byte. -/
theorem tWriteRx_performs_receive {s : State} {b : Byte} {rest : List Byte} {i : Instr} (hq : s.rxq = b :: rest)
    (hdec : decodeEvent (eventWord 0#2 s.writeInProgress b) = .ok i) :
    ∃ t, exec i { s with rxq := rest } = .next t ∧
      exec .tWriteRx s = .next { t with eventData := s.eventData } := by
  rw [decodeEvent_receive] at hdec
  cases hdec
  refine ⟨_, exec_receive { s with rxq := rest } b, ?_⟩
  have hbranch : exec .tWriteRx s = .next (({ s with rxq := rest } : State).receive b) := execTWriteRx_eq hq
  have hdata := State.receive_eventData { s with rxq := rest } b
  rw [hbranch, State.setEventData_restore hdata]

/-- R143, R163: `T_READ_REQ` performs REQUEST and supplies the byte it returns. -/
theorem tReadReq_performs_request (s : State) :
    ∃ t b, exec .request s = .next t ∧ t.eventData = some b ∧
      exec .tReadReq s = .next { t with
        eventData := s.eventData, txlog := s.txlog ++ [b], pend := { s.pend with rr := false } } := by
  refine ⟨_, s.requestByte, rfl, rfl, ?_⟩
  rw [← State.request_eventData s, ← State.request_txlog s, ← State.request_pend s]
  rfl

/-- R138, R144, R165: both stop branches perform FINISH. -/
theorem stop_performs_finish (s : State) :
    ∃ t, exec .finish s = .next t ∧
      exec .tWriteStop s = .next { t with
        eventData := s.eventData, pend := { s.pend with sp := false }, fsm := .idle } ∧
      exec .tReadStop s = .next { t with
        eventData := s.eventData, pend := { s.pend with sp := false }, fsm := .idle } :=
  ⟨_, rfl, rfl, rfl⟩

/-- Settles O7: each kind of move by its own step equation, each event by the branch that raises it. -/
theorem stepRunsTheDecodedOperation : Obligations.StepRunsTheDecodedOperation := by
  refine ⟨fun s i rest hrun => ⟨?_, ?_, ?_⟩, fun s b rest i hq hdec => tWriteRx_performs_receive hq hdec,
    tReadReq_performs_request, stop_performs_finish⟩
  · intro hs henabled hcond hdec
    rw [step_of_schedule_nil hrun hs, engineTurn_eq_exec henabled hcond hdec]
  · intro hs henabled hcond hdec
    rw [step_of_schedule_engine hrun hs]
    exact engineTurn_eq_exec henabled hcond hdec
  · intro w hs hpass hdec
    rw [step_of_schedule_localOp hrun hs hpass, localTurn_eq_exec hdec]

/-! ## The state after power-on (R54) -/

/-- The model's cell lookup is the first cell listed for the address. -/
theorem cellsFind_eq_find? (m : List Host.Cell) (a : Nat) :
    cellsFind m a = (m.find? (fun x => x.1 == a)).map (·.2) := by
  induction m with
  | nil => rfl
  | cons c rest ih =>
    obtain ⟨k, v⟩ := c
    by_cases hk : k = a
    · simp [cellsFind, hk]
    · simp [cellsFind, hk, ih]

/-- R54: after power-on every register reads its `INIT_REGS` contents, zero where none are listed. -/
theorem reg_resetOf (c : Config) (a : Addr) :
    (State.resetOf c).reg a = ((c.initRegs.find? (fun x => x.1 == a.toNat)).map (·.2)).getD 0x00#8 := by
  rw [← cellsFind_eq_find?]
  rfl

/-- R54: no register is dirty after power-on. -/
theorem dirty_resetOf (c : Config) (a : Addr) : (State.resetOf c).dirty a = false :=
  BitVec.getLsbD_zero

/-- R32, R46: under REF the identification registers hold their parameters after power-on. -/
theorem reset_identified : State.reset.identified := by
  constructor
  · decide
  · have hbytes : ∀ k : Fin Config.ref.uid.length,
        State.reset.reg (Config.ref.map.uid + BitVec.ofNat 8 k) = Config.ref.uid[k] := by decide
    exact fun k hk => hbytes ⟨k, hk⟩

/-- Settles O28: the register file by `reg_resetOf`, the dirty bits by `dirty_resetOf`, every other field as
`State.resetOf` gives it; REF's well-formedness and identification by evaluation. -/
theorem powerOnStateIsTheSpecs : Obligations.PowerOnStateIsTheSpecs := by
  refine ⟨fun c => ⟨reg_resetOf c, fun a => rfl, dirty_resetOf c, rfl, rfl, rfl, rfl, rfl, rfl, rfl, ?_, rfl, rfl, rfl⟩,
    ?_, rfl, reset_identified⟩
  · exact (State.cond_eq_zero_iff _).2 ⟨rfl, rfl⟩
  · decide

end Sys2Proof.Machine

/-! # Proofs: the invariants of the state -/

namespace Sys2Proof.Machine

/-! ## What an operation writes of the register file, the flags and the arbitration bits (R20 to R27) -/

/-- Two states agree in everything R20 to R27 name but `fsm`, and in the configuration. -/
structure State.SameBlock (s t : State) : Prop where
  config : t.config = s.config := by rfl
  registers : t.registers = s.registers := by rfl
  readOnly : t.readOnly = s.readOnly := by rfl
  modified : t.modified = s.modified := by rfl
  cursor : t.cursor = s.cursor := by rfl
  writeInProgress : t.writeInProgress = s.writeInProgress := by rfl
  target : t.target = s.target := by rfl
  current : t.current = s.current := by rfl
  clearPending : t.clearPending = s.clearPending := by rfl

theorem State.SameBlock.reg {s t : State} (h : s.SameBlock t) (a : Addr) : t.reg a = s.reg a :=
  State.reg_congr h.config h.registers a

theorem State.SameBlock.dirty {s t : State} (h : s.SameBlock t) (a : Addr) : t.dirty a = s.dirty a :=
  State.dirty_congr h.modified a

/-- R142: a recovery touches the front-end and `fsm` alone. -/
theorem State.sameBlock_recover (s : State) (cause : RecoverCause) : s.SameBlock (s.recover cause) := by
  rw [State.recover_eq]
  exact {}

/-- R230: a handler touches nothing of the block. -/
theorem State.sameBlock_handler (s : State) (a : Addr) (v : Byte) : s.SameBlock (s.handler a v) := by
  rw [State.handler_eq]
  exact {}

/-- R162: the data phase does not look at the queue. -/
theorem State.sameBlock_receiveData_rxDrop (s : State) (b : Byte) :
    (s.receiveData b).SameBlock (s.rxDrop.receiveData b) := by
  unfold State.receiveData State.busWrite
  rw [State.rxDrop_cursor, State.ro_rxDrop]
  split <;> exact {}

/-- R107: without `wip` a byte is an address. -/
theorem State.receive_of_not_wip {s : State} (h : s.writeInProgress = false) (b : Byte) :
    s.receive b = s.receiveAddr b := by
  simp [State.receive, h]

/-- R107: with `wip` a byte is data. -/
theorem State.receive_of_wip {s : State} (h : s.writeInProgress = true) (b : Byte) :
    s.receive b = s.receiveData b := by
  simp [State.receive, h]

/-- The writes an operation can make to the block, with the operations that make each (R23 to R27, R76, R161 to R165,
R184 to R192). It bounds the writes from above: `nothing` is open to every operation. -/
inductive BlockWrite (s : State) : Instr → State → Prop
  | nothing (i : Instr) : BlockWrite s i s
  | addressPhase {i : Instr} (b : Byte) (hi : i = .tWriteRx ∨ i = .receiveAddr b) : BlockWrite s i (s.receiveAddr b)
  | dataPhase {i : Instr} (b : Byte) (hi : (i = .tWriteRx ∧ s.writeInProgress = true) ∨ i = .receiveData b) :
      BlockWrite s i (s.receiveData b)
  | request {i : Instr} (hi : i = .tReadReq ∨ i = .request) : BlockWrite s i s.request
  | finish {i : Instr} (hi : i = .tWriteStop ∨ i = .tReadStop ∨ i = .finish) : BlockWrite s i s.finish
  | busWrite (a : Addr) (v : Byte) : BlockWrite s (.regwr a v) (s.busWrite a v)
  | store {i : Instr} (a : Addr) (v : Byte) (hi : branchTarget i = none) : BlockWrite s i (s.setReg a v)
  | clearDirty (a : Addr) : BlockWrite s (.lpModclr a) (s.clearDirty a)
  | setTarget : BlockWrite s .arbSetTarget s.arbSetTarget
  | resolve : BlockWrite s .arbResolve s.arbResolve

/-- R137: where `T_WRITE_RX` answers, a byte was waiting, and RECEIVE had it. -/
theorem tWriteRx_next {s t : State} (h : exec .tWriteRx s = .next t) :
    ∃ b rest, s.rxq = b :: rest ∧ t = s.rxDrop.receive b := by
  simp only [exec, execTWriteRx] at h
  split at h
  case h_1 => cases h
  case h_2 b rest hq => cases h; exact ⟨b, rest, hq, rfl⟩

/-- R181: where INIT answers, the engine was not enabled. -/
theorem init_next {s t : State} {a : BitVec 8} (h : exec (.init a) s = .next t) :
    s.enabled = false ∧ t = { s with
      slaveAddr := slaveAddrOf a, pend := ⟨false, false, false, false⟩, rxq := [], fsm := .idle, enabled := true,
      readData := none } := by
  simp only [exec, execInit] at h
  split at h
  case isTrue => cases h
  case isFalse he => cases h; exact ⟨by simpa using he, rfl⟩

/-- R182: where DEINIT answers, the engine was enabled and in IDLE. -/
theorem deinit_next {s t : State} (h : exec .deinit s = .next t) :
    s.enabled = true ∧ s.fsm = .idle ∧ t = { s with enabled := false, readData := none } := by
  simp only [exec, execDeinit] at h
  split at h
  case isTrue => cases h
  case isFalse he =>
    split at h
    case isTrue => cases h
    case isFalse hf => cases h; exact ⟨by simpa using he, by simpa using hf, rfl⟩

/-- Every operation makes one of the writes, and no more of the block changes. -/
theorem exec_blockWrite {i : Instr} {s t : State} (h : exec i s = .next t) :
    ∃ u, BlockWrite s i u ∧ u.SameBlock t := by
  cases i
  case tWriteRx =>
    obtain ⟨b, rest, -, rfl⟩ := tWriteRx_next h
    cases hw : s.writeInProgress with
    | false => rw [State.receive_of_not_wip (s := s.rxDrop) hw]; exact ⟨_, .addressPhase b (.inl rfl), {}⟩
    | true =>
      rw [State.receive_of_wip (s := s.rxDrop) hw]
      exact ⟨_, .dataPhase b (.inl ⟨rfl, hw⟩), s.sameBlock_receiveData_rxDrop b⟩
  case init a => obtain ⟨-, rfl⟩ := init_next h; exact ⟨s, .nothing _, {}⟩
  case deinit => obtain ⟨-, -, rfl⟩ := deinit_next h; exact ⟨s, .nothing _, {}⟩
  all_goals cases h
  case receiveAddr b => exact ⟨_, .addressPhase b (.inr rfl), {}⟩
  case receiveData b => exact ⟨_, .dataPhase b (.inr rfl), {}⟩
  case tReadReq => exact ⟨_, .request (.inl rfl), {}⟩
  case request => exact ⟨_, .request (.inr rfl), {}⟩
  case tWriteStop => exact ⟨_, .finish (.inl rfl), {}⟩
  case tReadStop => exact ⟨_, .finish (.inr (.inl rfl)), {}⟩
  case finish => exact ⟨_, .finish (.inr (.inr rfl)), {}⟩
  case regwr a v => exact ⟨_, .busWrite a v, {}⟩
  case lpStore a v => exact ⟨_, .store a v rfl, {}⟩
  case setCrashDebug v => exact ⟨_, .store _ v rfl, {}⟩
  case setResetAttempted v => exact ⟨_, .store _ v rfl, {}⟩
  case lpModclr a => exact ⟨_, .clearDirty a, {}⟩
  case arbSetTarget => exact ⟨_, .setTarget, {}⟩
  case arbResolve => exact ⟨_, .resolve, {}⟩
  case tIdleRecover => exact ⟨s, .nothing _, s.sameBlock_recover _⟩
  case tStartFault => exact ⟨s, .nothing _, s.sameBlock_recover _⟩
  case tWriteRecover => exact ⟨s, .nothing _, s.sameBlock_recover _⟩
  case tReadRecover => exact ⟨s, .nothing _, s.sameBlock_recover _⟩
  all_goals exact ⟨s, .nothing _, {}⟩

/-! ## The writers of a dirty bit and of the control bits (R23 to R27) -/

/-- R23: the accepted writes, those that set the dirty bit of an address. -/
def SetsDirty (i : Instr) (s : State) (a : Addr) : Prop :=
  s.ro a = false ∧
    ((i = .tWriteRx ∧ s.writeInProgress = true ∧ s.cursor = a) ∨ (∃ b, i = .receiveData b ∧ s.cursor = a) ∨
      ∃ v, i = .regwr a v)

/-- R23: a dirty bit that changes was set by an accepted write or cleared by LP_MODCLR. -/
theorem BlockWrite.dirty_cases {i : Instr} {s u : State} (h : BlockWrite s i u) (a : Addr) :
    u.dirty a = s.dirty a ∨ (u.dirty a = false ∧ i = .lpModclr a) ∨
      (u.dirty a = true ∧ SetsDirty i s a) := by
  cases h with
  | nothing => exact .inl rfl
  | addressPhase => exact .inl rfl
  | dataPhase b hi =>
    rw [State.dirty_receiveData]
    split
    case isTrue hw =>
      obtain ⟨rfl, hro⟩ := hw
      refine .inr (.inr ⟨rfl, hro, ?_⟩)
      rcases hi with ⟨hi, hwip⟩ | hi
      · exact .inl ⟨hi, hwip, rfl⟩
      · exact .inr (.inl ⟨b, hi, rfl⟩)
    case isFalse => exact .inl rfl
  | request => exact .inl (s.dirty_request a)
  | finish => exact .inl rfl
  | busWrite c v =>
    rw [State.dirty_busWrite]
    split
    case isTrue hw => obtain ⟨rfl, hro⟩ := hw; exact .inr (.inr ⟨rfl, hro, .inr (.inr ⟨v, rfl⟩)⟩)
    case isFalse => exact .inl rfl
  | store => exact .inl rfl
  | clearDirty c =>
    rw [State.dirty_clearDirty]
    split
    case isTrue hc => subst hc; exact .inr (.inl ⟨rfl, rfl⟩)
    case isFalse => exact .inl rfl
  | setTarget => exact .inl rfl
  | resolve => rw [State.arbResolve_eq]; exact .inl rfl

/-- R23, over every operation. -/
theorem exec_dirty_cases {i : Instr} {s t : State} (h : exec i s = .next t) (a : Addr) :
    t.dirty a = s.dirty a ∨ (t.dirty a = false ∧ i = .lpModclr a) ∨
      (t.dirty a = true ∧ SetsDirty i s a) := by
  obtain ⟨u, hwrite, hsame⟩ := exec_blockWrite h
  rw [hsame.dirty]
  exact hwrite.dirty_cases a

/-- R24, R25, R27: what each write of the block leaves of the cursor, `wip` and the arbitration bits. -/
theorem BlockWrite.control {i : Instr} {s u : State} (h : BlockWrite s i u) :
    (u.cursor ≠ s.cursor →
      i = .tWriteRx ∨ i = .tReadReq ∨ i = .request ∨ (∃ b, i = .receiveAddr b) ∨ ∃ b, i = .receiveData b) ∧
    (s.writeInProgress = false → u.writeInProgress = true → i = .tWriteRx ∨ ∃ b, i = .receiveAddr b) ∧
    (s.writeInProgress = true → u.writeInProgress = false →
      i = .tReadReq ∨ i = .request ∨ i = .tWriteStop ∨ i = .tReadStop ∨ i = .finish) ∧
    (u.current ≠ s.current → i = .arbResolve) ∧
    (s.target = false → u.target = true → i = .arbSetTarget) ∧
    (s.target = true → u.target = false → (i = .tReadReq ∨ i = .request) ∧ s.cursor = s.config.map.interrupt2) ∧
    (s.clearPending = false → u.clearPending = true →
      (i = .tReadReq ∨ i = .request) ∧ s.cursor = s.config.map.interrupt2) ∧
    (s.clearPending = true → u.clearPending = false → i = .arbResolve) := by
  cases h with
  | nothing => simp_all
  | addressPhase b hi => rcases hi with rfl | rfl <;> simp [State.receiveAddr]
  | dataPhase b hi => rw [State.receiveData_eq]; rcases hi with ⟨rfl, -⟩ | rfl <;> simp_all
  | request hi => rw [State.request_eq]; rcases hi with rfl | rfl <;> simp_all
  | finish hi => rcases hi with rfl | rfl | rfl <;> simp_all [State.finish]
  | busWrite a v => rw [State.busWrite_eq]; simp_all
  | store a v => simp_all
  | clearDirty a => simp_all
  | setTarget => simp_all [State.arbSetTarget]
  | resolve => rw [State.arbResolve_eq]; simp_all

/-- Settles O36: every operation makes one of the writes of `BlockWrite`. -/
theorem controlBitsHaveTheirWritersOnly : Obligations.ControlBitsHaveTheirWritersOnly := by
  intro i s t h
  obtain ⟨u, hwrite, hsame⟩ := exec_blockWrite h
  rw [hsame.cursor, hsame.writeInProgress, hsame.current, hsame.target, hsame.clearPending]
  exact hwrite.control

/-! ## The micro-steps of a pass as operations (R210 to R217) -/

/-- R230: at a point with no operation a handler runs, which touches nothing of the block. -/
theorem State.passStepAt_sameBlock {s : State} {d : Draws} {p : PassPoint} (h : passOp s d p = none) :
    s.SameBlock (s.passStepAt d p) := by
  cases p
  case handler a v =>
    simp only [State.passStepAt]
    split
    · exact s.sameBlock_handler a v
    · rw [State.handler_eq]; exact {}
  all_goals cases h

/-- R210: at every other point the micro-step writes of the block what its operation does. -/
theorem State.passStepAt_performs {s : State} {d : Draws} {p : PassPoint} {i : Instr} (h : passOp s d p = some i) :
    ∃ t, exec i s = .next t ∧ t.SameBlock (s.passStepAt d p) := by
  cases p <;> cases h <;> exact ⟨_, rfl, {}⟩

/-- R210: a micro-step leaves the block as it is, or performs the operation of its point. -/
theorem State.passStep_cases (s : State) :
    s.SameBlock s.passStep ∨ ∃ d p i t, s.passInProgress = some ⟨d, p⟩ ∧ passOp s d p = some i ∧
      exec i s = .next t ∧ t.SameBlock s.passStep := by
  unfold State.passStep
  split
  case h_1 => exact .inl {}
  case h_2 pass hpass =>
    cases hop : passOp s pass.draws pass.point with
    | none => exact .inl (State.passStepAt_sameBlock hop)
    | some i =>
      obtain ⟨t, hexec, hsame⟩ := State.passStepAt_performs hop
      exact .inr ⟨pass.draws, pass.point, i, t, hpass, hop, hexec, hsame⟩

/-- R210, R212: a pass issues no branch and no bus write, and LP_MODCLR only in the clearing step of an address. -/
theorem passOp_cases {s : State} {d : Draws} {p : PassPoint} {i : Instr} (h : passOp s d p = some i) :
    branchTarget i = none ∧ (∀ b, i ≠ .receiveData b) ∧ (∀ a v, i ≠ .regwr a v) ∧ ∀ a, i = .lpModclr a → p = .modClear a := by
  cases p <;> cases h <;> simp [branchTarget]

/-- R212: of the dirty bits a micro-step of a pass changes at most the one it clears. -/
theorem State.passStep_dirty_cases (s : State) (a : Addr) :
    s.passStep.dirty a = s.dirty a ∨
      (s.passStep.dirty a = false ∧ ∃ d, s.passInProgress = some ⟨d, .modClear a⟩) := by
  rcases s.passStep_cases with hsame | ⟨d, p, i, t, hpass, hop, hexec, hsame⟩
  · exact .inl (hsame.dirty a)
  · rw [hsame.dirty]
    obtain ⟨htarget, hdata, hregwr, hclear⟩ := passOp_cases hop
    rcases exec_dirty_cases hexec a with he | ⟨he, hi⟩ | ⟨-, -, ⟨hi, -⟩ | ⟨b, hi, -⟩ | ⟨v, hi⟩⟩
    · exact .inl he
    · exact .inr ⟨he, d, by rw [hpass, hclear a hi]⟩
    · subst hi; cases htarget
    · exact absurd hi (hdata b)
    · exact absurd hi (hregwr a v)

/-- Settles O35: by the changes `exec_dirty_cases` and `passStep_dirty_cases` allow. -/
theorem dirtyBitsHaveTheirWritersOnly : Obligations.DirtyBitsHaveTheirWritersOnly := by
  refine ⟨fun i s t a h hs ht => ?_, fun i s t a h hs ht => ?_, fun s a => ⟨fun hs => ?_, fun hs ht => ?_⟩⟩
  · rcases exec_dirty_cases h a with he | ⟨he, -⟩ | ⟨-, hset⟩
    · simp [he, hs] at ht
    · simp [he] at ht
    · exact hset
  · rcases exec_dirty_cases h a with he | ⟨-, hclear⟩ | ⟨he, -⟩
    · simp [he, hs] at ht
    · exact hclear
    · simp [he] at ht
  · rcases s.passStep_dirty_cases a with he | ⟨he, -⟩
    · rw [he, hs]
    · exact he
  · rcases s.passStep_dirty_cases a with he | ⟨-, hclear⟩
    · simp [he, hs] at ht
    · exact hclear

/-! ## What an operation does to the queue, `enabled` and `fsm` (R26, R30, R31) -/

/-- R137, as a record: RECEIVE touches neither the front-end nor `fsm`. -/
theorem State.receive_eq (s : State) (b : Byte) :
    s.receive b = { s with
      registers := (s.receive b).registers, modified := (s.receive b).modified, cursor := (s.receive b).cursor
      writeInProgress := (s.receive b).writeInProgress } := by
  unfold State.receive
  split
  · rw [State.receiveData_eq]
  · rfl

/-- INIT and DEINIT aside, an operation keeps `enabled`, at most pops the receive queue, and moves `fsm` only as a
branch. -/
theorem exec_frontEnd {i : Instr} {s t : State} (h : exec i s = .next t) (hinit : ∀ a, i ≠ .init a)
    (hdeinit : i ≠ .deinit) :
    t.enabled = s.enabled ∧ t.rxq <:+ s.rxq ∧ (branchTarget i = none → t.fsm = s.fsm) := by
  cases i
  case tWriteRx =>
    obtain ⟨b, rest, -, rfl⟩ := tWriteRx_next h
    rw [State.receive_eq]
    exact ⟨rfl, s.rxq.tail_suffix, nofun⟩
  case init a => exact absurd rfl (hinit a)
  case deinit => exact absurd rfl hdeinit
  all_goals cases h
  case tIdleRecover => rw [State.recover_eq]; exact ⟨rfl, s.rxq.tail_suffix, nofun⟩
  case tStartFault => rw [State.recover_eq]; exact ⟨rfl, s.rxq.tail_suffix, nofun⟩
  case tWriteRecover => rw [State.recover_eq]; exact ⟨rfl, s.rxq.tail_suffix, nofun⟩
  case tReadRecover => rw [State.recover_eq]; exact ⟨rfl, s.rxq.tail_suffix, nofun⟩
  case tReadReq => rw [State.request_eq]; exact ⟨rfl, List.suffix_rfl, nofun⟩
  case request => rw [State.request_eq]; exact ⟨rfl, List.suffix_rfl, fun _ => rfl⟩
  case receiveData b => rw [State.receiveData_eq]; exact ⟨rfl, List.suffix_rfl, fun _ => rfl⟩
  case regwr a v => rw [State.busWrite_eq]; exact ⟨rfl, List.suffix_rfl, fun _ => rfl⟩
  case arbResolve => rw [State.arbResolve_eq]; exact ⟨rfl, List.suffix_rfl, fun _ => rfl⟩
  all_goals exact ⟨rfl, List.suffix_rfl, fun hi => by cases hi <;> rfl⟩

/-- R105: what the engine selects is one of the fourteen branches. -/
theorem branchTarget_of_selected {s : State} {i : Instr}
    (h : decodeBranch s.config.condPolicy s.selector = .ok i) : branchTarget i ≠ none := by
  rcases branch_or_recovery h with rfl | rfl
  · cases s.fsm <;> nofun
  · cases s.fsm <;> simp only [CondBits.branch] <;> repeat' split
    all_goals nofun

/-- R108: a local-port word decodes to no branch and to no slave event. -/
theorem decodeLocal_cases {w : BitVec 20} {i : Instr} (h : decodeLocal w = .ok i) :
    branchTarget i = none ∧ ∀ b, i ≠ .receiveAddr b := by
  unfold decodeLocal at h
  split at h <;> cases h <;> exact ⟨rfl, nofun⟩

/-! ## The moves of a step -/

/-- The move of a step, once its turn has left the schedule: the environment's, no engine step, the selected branch, a
local-port operation, a pass that begins, or a micro-step (R8, R31, R130, R180, R210, R217). -/
inductive Moves (s : State) : State → Prop
  | raise (c : Latched) : Moves s (s.envRaise c)
  | push (b : Byte) (hroom : s.rxHasRoom = true) : Moves s (s.envPush b)
  | noEngineStep : Moves s s
  | branch {i : Instr} {t : State} (henabled : s.enabled = true)
      (hdec : decodeBranch s.config.condPolicy s.selector = .ok i) (hexec : exec i s = .next t) : Moves s t
  | localOp {w : BitVec 20} {i : Instr} {t : State} (hdec : decodeLocal w = .ok i) (hexec : exec i s = .next t) :
      Moves s t
  | passTurn (d : Draws) : Moves s (s.passTurn d)
  | passStep : Moves s s.passStep

/-- R130: an engine turn is the selected branch, or no step at all. -/
theorem moves_of_engineTurn {s t : State} (h : engineTurn s = .next t) : Moves s t := by
  rcases engineTurn_cases h with ⟨rfl, -⟩ | ⟨henabled, -, i, hdec, hexec⟩
  · exact .noEngineStep
  · exact .branch henabled hdec hexec

/-- A step is a move of the state whose schedule has moved on. -/
theorem moves_of_step {s t : State} (h : step s = .next t) :
    ∃ rest, Moves { s with schedule := rest } t := by
  obtain ⟨-, hstep⟩ := step_cases h
  rcases hstep with ⟨-, hengine⟩ | ⟨c, rest, -, rfl⟩ | ⟨b, rest, -, hroom, rfl⟩ | ⟨rest, -, hengine⟩ |
    ⟨w, rest, -, -, hlocal⟩ | ⟨d, rest, -, -, rfl⟩ | ⟨rest, -, rfl⟩ | ⟨p, -, rfl, -⟩
  · exact ⟨s.schedule, moves_of_engineTurn hengine⟩
  · exact ⟨rest, .raise c⟩
  · exact ⟨rest, .push b hroom⟩
  · exact ⟨rest, moves_of_engineTurn hengine⟩
  · obtain ⟨i, hdec, hexec⟩ := runDecoded_next hlocal
    exact ⟨rest, .localOp hdec hexec⟩
  · exact ⟨rest, .passTurn d⟩
  · exact ⟨rest, .passStep⟩
  · exact ⟨s.schedule, .passStep⟩

/-- Settles O34: `exec_keeps` for the operations, and no other move names either field. -/
theorem readOnlyTableIsImmutable : Obligations.ReadOnlyTableIsImmutable := by
  intro s t h
  obtain ⟨rest, hmove⟩ := moves_of_step h
  cases hmove with
  | raise c => exact ⟨rfl, rfl⟩
  | push b => exact ⟨rfl, rfl⟩
  | noEngineStep => exact ⟨rfl, rfl⟩
  | branch _ _ hexec => obtain ⟨hconfig, htable, -⟩ := exec_keeps hexec; exact ⟨htable, hconfig⟩
  | localOp _ hexec => obtain ⟨hconfig, htable, -⟩ := exec_keeps hexec; exact ⟨htable, hconfig⟩
  | passTurn d => rw [State.passTurn_eq]; exact ⟨rfl, rfl⟩
  | passStep => rw [State.passStep_eq]; exact ⟨rfl, rfl⟩

/-! ## The invariant (R53, R54, R183, D31) -/

/-- Settles O30: an empty register file lists nothing, and no bit, no byte and no `enabled` is set. -/
theorem invariantHoldsAfterPowerOn : Obligations.InvariantHoldsAfterPowerOn := fun c => {
  memory := ⟨.nil, nofun, nofun⟩
  table := rfl
  clean := fun a _ => dirty_resetOf c a
  disabledIdle := fun _ => rfl
  depth := fun d _ => Nat.zero_le d }

namespace State.Inv

variable {s t : State}

/-- The invariant of the block carries over to a state with the same block, an IDLE engine where it is not enabled, and
a queue within its depth. -/
theorem of_sameBlock (h : s.Inv) (hsame : s.SameBlock t) (hidle : t.enabled = false → t.fsm = .idle)
    (hqueue : ∀ d, t.config.rxDepth = some d → t.rxq.length ≤ d) : t.Inv where
  memory := by rw [hsame.config, hsame.registers]; exact h.memory
  table := by rw [hsame.config, hsame.readOnly]; exact h.table
  clean a ha := by rw [hsame.dirty]; exact h.clean a (hsame.config ▸ ha)
  disabledIdle := hidle
  depth := hqueue

/-- R186, R164: a raw store keeps the invariant, at a read-only address too. -/
theorem setReg (h : s.Inv) (a : Addr) (v : Byte) : (s.setReg a v).Inv where
  memory := State.setReg_wf h.memory a v
  table := h.table
  clean := h.clean
  disabledIdle := h.disabledIdle
  depth := h.depth

/-- R76: a bus write keeps the invariant, since it sets no dirty bit at a read-only address. -/
theorem busWrite (h : s.Inv) (a : Addr) (v : Byte) : (s.busWrite a v).Inv := by
  unfold State.busWrite
  split
  case isTrue => exact h
  case isFalse hro =>
    refine ⟨(h.setReg a v).memory, h.table, fun b hb => ?_, h.disabledIdle, h.depth⟩
    have hne : b ≠ a := by
      rintro rfl
      exact hro (by rw [State.ro, h.table]; exact hb)
    rw [State.dirty_setDirty, if_neg hne]
    exact h.clean b hb

/-- R188: clearing a dirty bit keeps the invariant. -/
theorem clearDirty (h : s.Inv) (a : Addr) : (s.clearDirty a).Inv where
  memory := h.memory
  table := h.table
  clean b hb := by
    rw [State.dirty_clearDirty]
    split
    · rfl
    · exact h.clean b hb
  disabledIdle := h.disabledIdle
  depth := h.depth

/-- The invariant does not name the cursor, `wip`, the arbitration bits, the results and the traces. -/
theorem of_control (h : s.Inv) (cursor : Addr) (wip target current clearPending : Bool) (readData : Option Byte)
    (emitted : List Output) :
    ({ s with
      cursor := cursor, writeInProgress := wip, target := target, current := current, clearPending := clearPending
      readData := readData, emitted := emitted } : State).Inv :=
  ⟨h.memory, h.table, h.clean, h.disabledIdle, h.depth⟩

/-- R163, R164: REQUEST keeps the invariant. -/
theorem request (h : s.Inv) : s.request.Inv := by
  unfold State.request
  split
  · exact ((h.setReg _ 0x00#8).setReg _ 0x00#8).of_control _ _ _ _ _ _ _
  · exact h.of_control _ _ _ _ _ _ _

/-- Every write of the block keeps the invariant. -/
theorem blockWrite {i : Instr} (h : s.Inv) (hwrite : BlockWrite s i t) : t.Inv := by
  cases hwrite with
  | nothing => exact h
  | addressPhase b => exact h.of_control _ _ _ _ _ _ _
  | dataPhase b => exact (h.busWrite s.cursor b).of_control _ _ _ _ _ _ _
  | request => exact h.request
  | finish => exact h.of_control _ _ _ _ _ _ _
  | busWrite a v => exact h.busWrite a v
  | store a v => exact h.setReg a v
  | clearDirty a => exact h.clearDirty a
  | setTarget => exact h.of_control _ _ _ _ _ _ _
  | resolve => rw [State.arbResolve_eq]; exact h.of_control _ _ _ _ _ _ _

/-- An operation keeps the invariant, a branch where the engine is enabled. -/
theorem exec_next {i : Instr} (h : s.Inv) (hexec : exec i s = .next t)
    (hi : s.enabled = true ∨ branchTarget i = none) : t.Inv := by
  by_cases hinit : ∃ a, i = .init a
  · obtain ⟨a, rfl⟩ := hinit
    obtain ⟨-, rfl⟩ := init_next hexec
    exact ⟨h.memory, h.table, h.clean, nofun, fun _ _ => Nat.zero_le _⟩
  by_cases hdeinit : i = .deinit
  · subst hdeinit
    obtain ⟨-, hidle, rfl⟩ := deinit_next hexec
    exact ⟨h.memory, h.table, h.clean, fun _ => hidle, h.depth⟩
  obtain ⟨u, hwrite, hsame⟩ := exec_blockWrite hexec
  obtain ⟨henabled, hsuffix, hfsm⟩ := exec_frontEnd hexec (fun a ha => hinit ⟨a, ha⟩) hdeinit
  obtain ⟨hconfig, -⟩ := exec_keeps hexec
  refine (h.blockWrite hwrite).of_sameBlock hsame (fun ht => ?_)
    (fun d hd => hsuffix.length_le.trans (h.depth d (hconfig ▸ hd)))
  rw [henabled] at ht
  rcases hi with hi | hi
  · rw [hi] at ht; cases ht
  · rw [hfsm hi]; exact h.disabledIdle ht

/-- R217: a micro-step of a pass keeps the invariant. -/
theorem passStep (h : s.Inv) : s.passStep.Inv := by
  have hidle : s.passStep.enabled = false → s.passStep.fsm = .idle := by
    rw [State.passStep_eq]; exact h.disabledIdle
  have hqueue : ∀ d, s.passStep.config.rxDepth = some d → s.passStep.rxq.length ≤ d := by
    rw [State.passStep_eq]; exact h.depth
  rcases s.passStep_cases with hsame | ⟨d, p, i, u, -, hop, hexec, hsame⟩
  · exact h.of_sameBlock hsame hidle hqueue
  · obtain ⟨htarget, -⟩ := passOp_cases hop
    exact (h.exec_next hexec (.inr htarget)).of_sameBlock hsame hidle hqueue

/-- R217: so does any number of them. -/
theorem passRun (h : s.Inv) (n : Nat) : (State.passRun n s).Inv := by
  induction n generalizing s with
  | zero => exact h
  | succ n ih =>
    unfold State.passRun
    split
    · exact h
    · exact ih h.passStep

/-- R210: so does the gate test. -/
theorem passBegin (h : s.Inv) (d : Draws) : (s.passBegin d).Inv := by
  rw [State.passBegin_eq]
  exact ⟨h.memory, h.table, h.clean, h.disabledIdle, h.depth⟩

/-- R216: so does a whole pass. -/
theorem passTurn (h : s.Inv) (d : Draws) : (s.passTurn d).Inv := by
  unfold State.passTurn
  split
  · exact h.passBegin d
  · exact (h.passBegin d).passRun passBound

/-- D31: a byte is pushed only where there is room for it. -/
theorem envPush (h : s.Inv) (b : Byte) (hroom : s.rxHasRoom = true) : (s.envPush b).Inv where
  memory := h.memory
  table := h.table
  clean := h.clean
  disabledIdle := h.disabledIdle
  depth d hd := by
    have hd' : s.config.rxDepth = some d := hd
    have hlt : s.rxq.length < d := by simpa [State.rxHasRoom, hd'] using hroom
    simpa using hlt

/-- Every move keeps the invariant. -/
theorem moves (h : s.Inv) (hmove : Moves s t) : t.Inv := by
  cases hmove with
  | raise c => exact ⟨h.memory, h.table, h.clean, h.disabledIdle, h.depth⟩
  | push b hroom => exact h.envPush b hroom
  | noEngineStep => exact h
  | branch henabled _ hexec => exact h.exec_next hexec (.inl henabled)
  | localOp hdec hexec =>
    obtain ⟨htarget, -⟩ := decodeLocal_cases hdec
    exact h.exec_next hexec (.inr htarget)
  | passTurn d => exact h.passTurn d
  | passStep => exact h.passStep

/-- The invariant does not name the schedule. -/
theorem of_schedule (h : s.Inv) (rest : List Turn) : ({ s with schedule := rest } : State).Inv :=
  ⟨h.memory, h.table, h.clean, h.disabledIdle, h.depth⟩

end State.Inv

/-- Settles O31: every move keeps the invariant, which does not name the schedule. -/
theorem everyStepKeepsTheInvariant : Obligations.EveryStepKeepsTheInvariant := by
  intro s t hinv h
  obtain ⟨rest, hmove⟩ := moves_of_step h
  exact (hinv.of_schedule rest).moves hmove

/-! ## `wip` inside a transaction (R53 (f)) -/

/-- Where `fsm` stays and `wip` is not set, both clauses of R53 (f) carry over. -/
theorem State.addressPhaseSound.of_fsm_eq {s t : State} (hs : s.addressPhaseSound) (hfsm : t.fsm = s.fsm)
    (hwip : t.writeInProgress = true → s.writeInProgress = true) :
    t.addressPhaseSound ∧ (s.fsm = .read → s.writeInProgress = false → t.fsm = .read → t.writeInProgress = false) := by
  refine ⟨fun ht => hfsm ▸ hs (hwip ht), fun _ hclear _ => ?_⟩
  cases ht : t.writeInProgress with
  | false => rfl
  | true => rw [hwip ht] at hclear; cases hclear

/-- R142: a recovery is seen in the trace. -/
theorem State.recover_recoveries_ne (s : State) (cause : RecoverCause) :
    (s.recover cause).recoveries ≠ s.recoveries := by
  rw [State.recover_eq]
  simp

/-- R131 to R145: a selected branch recovers, leaves `wip` false, or goes from WRITE to WRITE or READ. -/
theorem branch_wip {s t : State} {i : Instr} (hs : s.addressPhaseSound)
    (hdec : decodeBranch s.config.condPolicy s.selector = .ok i) (hexec : exec i s = .next t)
    (hrec : t.recoveries = s.recoveries) :
    t.writeInProgress = false ∨ (s.fsm = .write ∧ (t.fsm = .write ∨ t.fsm = .read)) := by
  have hclear : s.fsm ≠ .write → s.fsm ≠ .read → s.writeInProgress = false := fun hw hr => by
    cases hwip : s.writeInProgress with
    | false => rfl
    | true => exact ((hs hwip).elim hw hr).elim
  rcases branch_cases hdec with ⟨hf, hi⟩ | ⟨hf, hi⟩ | ⟨hf, hi⟩ | ⟨hf, hi⟩
  case inl | inr.inl =>
    have hwip : s.writeInProgress = false := hclear (by simp [hf]) (by simp [hf])
    rcases hi with ⟨rfl, -⟩ | ⟨rfl, -⟩ | rfl <;> cases hexec
    · exact .inl hwip
    · exact .inl hwip
    · exact absurd hrec (s.recover_recoveries_ne _)
  · rcases hi with ⟨rfl, -⟩ | ⟨rfl, -⟩ | ⟨rfl, -⟩ | ⟨rfl, -⟩ | rfl
    · obtain ⟨b, rest, -, rfl⟩ := tWriteRx_next hexec
      rw [State.receive_eq]
      exact .inr ⟨hf, .inl hf⟩
    all_goals cases hexec
    · exact .inl rfl
    · exact .inr ⟨hf, .inr rfl⟩
    · exact .inr ⟨hf, .inr rfl⟩
    · exact absurd hrec (s.recover_recoveries_ne _)
  · rcases hi with ⟨rfl, -⟩ | ⟨rfl, -⟩ | rfl <;> cases hexec
    · rw [State.request_eq]; exact .inl rfl
    · exact .inl rfl
    · exact absurd hrec (s.recover_recoveries_ne _)

/-- R180: a local-port operation neither sets `wip` nor, in a state that meets the invariant, moves `fsm`. -/
theorem localOp_fsm_wip {s t : State} {w : BitVec 20} {i : Instr} (hinv : s.Inv) (hdec : decodeLocal w = .ok i)
    (hexec : exec i s = .next t) :
    t.fsm = s.fsm ∧ (t.writeInProgress = true → s.writeInProgress = true) := by
  obtain ⟨htarget, haddr⟩ := decodeLocal_cases hdec
  constructor
  · by_cases hinit : ∃ a, i = .init a
    · obtain ⟨a, rfl⟩ := hinit
      obtain ⟨hdisabled, rfl⟩ := init_next hexec
      exact (hinv.disabledIdle hdisabled).symm
    by_cases hdeinit : i = .deinit
    · subst hdeinit
      obtain ⟨-, -, rfl⟩ := deinit_next hexec
      rfl
    · obtain ⟨-, -, hfsm⟩ := exec_frontEnd hexec (fun a ha => hinit ⟨a, ha⟩) hdeinit
      exact hfsm htarget
  · intro ht
    obtain ⟨-, hset, -⟩ := controlBitsHaveTheirWritersOnly i s t hexec
    cases hs : s.writeInProgress with
    | true => rfl
    | false =>
      rcases hset hs ht with rfl | ⟨b, rfl⟩
      · cases htarget
      · exact absurd rfl (haddr b)

/-- R53 (f) over every move. -/
theorem Moves.addressPhaseSound {s t : State} (hmove : Moves s t) (hinv : s.Inv) (hs : s.addressPhaseSound)
    (hrec : t.recoveries = s.recoveries) :
    t.addressPhaseSound ∧ (s.fsm = .read → s.writeInProgress = false → t.fsm = .read → t.writeInProgress = false) := by
  cases hmove with
  | raise c => exact hs.of_fsm_eq rfl id
  | push b => exact hs.of_fsm_eq rfl id
  | noEngineStep => exact hs.of_fsm_eq rfl id
  | branch _ hdec hexec =>
    rcases branch_wip hs hdec hexec hrec with hwip | ⟨hfrom, hto⟩
    · exact ⟨fun ht => absurd (hwip.symm.trans ht) (by decide), fun _ _ _ => hwip⟩
    · exact ⟨fun _ => hto, fun hread => absurd (hfrom.symm.trans hread) (by decide)⟩
  | localOp hdec hexec =>
    obtain ⟨hfsm, hwip⟩ := localOp_fsm_wip hinv hdec hexec
    exact hs.of_fsm_eq hfsm hwip
  | passTurn d => exact hs.of_fsm_eq (by rw [State.passTurn_eq]) (by rw [State.passTurn_eq]; exact id)
  | passStep => exact hs.of_fsm_eq (by rw [State.passStep_eq]) (by rw [State.passStep_eq]; exact id)

/-- Settles O32: `Moves.addressPhaseSound`, which does not name the schedule. -/
theorem writeInProgressOnlyInsideATransaction : Obligations.WriteInProgressOnlyInsideATransaction := by
  intro s t hinv hs h hrec
  obtain ⟨rest, hmove⟩ := moves_of_step h
  exact hmove.addressPhaseSound (hinv.of_schedule rest) hs hrec

/-! ## Safety of the engine's turns (R31, R53 (c), R56) -/

/-- Settles O14: the one fault an operation raises needs an empty queue, and `T_WRITE_RX` is selected on no such. -/
theorem emptyQueueIsNeverPoppedByTheEngine : Obligations.EmptyQueueIsNeverPoppedByTheEngine := by
  refine ⟨fun s hempty => by simp [exec, execTWriteRx, hempty], fun s r h => ?_⟩
  by_cases hstep : s.enabled = true ∧ s.cond ≠ 0#5
  · obtain ⟨henabled, hcond⟩ := hstep
    obtain ⟨i, hdec⟩ := decodeBranch_total s.config.condPolicy s.selector
    rw [engineTurn_eq_exec henabled hcond hdec] at h
    obtain ⟨rfl, hempty⟩ := exec_fault h
    have hsel := branch_cases hdec
    simp [hempty] at hsel
  · rw [engineTurn, if_neg hstep] at h
    cases h

/-- R162, R164: of a read-only register the writes of a branch change only what the acknowledge zeroes. -/
theorem BlockWrite.reg_readOnly {i : Instr} {s u : State} {a : Addr} (h : BlockWrite s i u)
    (hi : branchTarget i ≠ none) (hro : s.ro a = true) :
    u.reg a = s.reg a ∨ (u.reg a = 0x00#8 ∧ (a = s.config.map.interrupt1 ∨ a = s.config.map.interrupt2) ∧
      i = .tReadReq ∧ s.cursor = s.config.map.interrupt2) := by
  cases h with
  | nothing => exact .inl rfl
  | addressPhase => exact .inl rfl
  | dataPhase b =>
    rw [State.reg_receiveData]
    refine .inl (if_neg ?_)
    rintro ⟨rfl, hwritable⟩
    rw [hro] at hwritable
    cases hwritable
  | request hreq =>
    rw [State.reg_request]
    split
    case isTrue hack =>
      obtain ⟨hcursor, ha⟩ := hack
      rcases hreq with rfl | rfl
      · exact .inr ⟨rfl, ha, rfl, hcursor⟩
      · exact absurd rfl hi
    case isFalse => exact .inl rfl
  | finish => exact .inl rfl
  | busWrite => exact absurd rfl hi
  | store _ _ hnone => exact absurd hnone hi
  | clearDirty => exact .inl rfl
  | setTarget => exact .inl rfl
  | resolve => exact absurd rfl hi

/-- Settles O38: a branch sets no dirty bit at a read-only address and clears none; the registers by
`BlockWrite.reg_readOnly`. -/
theorem busCannotChangeReadOnlyRegisters : Obligations.BusCannotChangeReadOnlyRegisters := by
  intro s t a h hro
  rcases engineTurn_cases h with ⟨rfl, -⟩ | ⟨-, -, i, hdec, hexec⟩
  · exact ⟨rfl, .inl rfl⟩
  have htarget := branchTarget_of_selected hdec
  constructor
  · rcases exec_dirty_cases hexec a with he | ⟨-, rfl⟩ | ⟨-, hwritable, -⟩
    · exact he
    · exact absurd rfl htarget
    · rw [hro] at hwritable; cases hwritable
  · obtain ⟨u, hwrite, hsame⟩ := exec_blockWrite hexec
    rw [hsame.reg]
    refine (hwrite.reg_readOnly htarget hro).imp_right fun ⟨hzero, ha, hreq, hcursor⟩ => ⟨hzero, ha, ?_, hcursor⟩
    subst hreq
    obtain ⟨hread, -⟩ : s.fsm = .read ∧ s.pend.rr = true := by simpa using branch_cases hdec
    exact hread

/-- Settles O9: `step` looks at `halted` first. -/
theorem haltedMachineTakesNoStep : Obligations.HaltedMachineTakesNoStep :=
  fun _ h => if_pos h

end Sys2Proof.Machine

/-! # Proofs: a placed word is run by the next step -/

namespace Sys2Proof.Machine

/-! ## Table words (R104, R107, R108) -/

/-- What a table word decodes to, width by width. -/
theorem decodeTableWord_cases {nbits w : Nat} {i : Instr} (h : decodeTableWord nbits w = some i) :
    (nbits ≤ 8 ∧ w < 2 ^ 7 ∧ decodeBranch .priority (BitVec.ofNat 7 w) = .ok i) ∨
      (8 < nbits ∧ nbits ≤ 16 ∧ w < 2 ^ 11 ∧ decodeEvent (BitVec.ofNat 11 w) = .ok i) ∨
      (16 < nbits ∧ decodeLocal (BitVec.ofNat 20 w) = .ok i) := by
  have hword : ∃ p, portWordOfTable nbits w = some p ∧ decode .priority p = .ok i := by
    unfold decodeTableWord at h
    split at h
    case h_1 => cases h
    case h_2 p hp =>
      split at h
      case h_1 j hj => cases h; exact ⟨p, hp, hj⟩
      case h_2 => cases h
  obtain ⟨p, hp, hdec⟩ := hword
  unfold portWordOfTable at hp
  split_ifs at hp with h8 hw7 h16 hw11 h24 hw20 <;> cases hp
  · exact .inl ⟨h8, hw7, hdec⟩
  · exact .inr (.inl ⟨by omega, h16, hw11, hdec⟩)
  · exact .inr (.inr ⟨by omega, hdec⟩)

/-- R160: an operation performed by its own step is no RECEIVE, so nothing is asked of one. -/
theorem forall_receive_of_performedBy_self {i : Instr} {P Q : Byte → Prop} (h : performedBy i = i) :
    (∀ b, i = .receiveAddr b → P b) ∧ ∀ b, i = .receiveData b → Q b := by
  constructor <;> rintro b rfl <;> cases h

/-- R160: a branch is performed by its own step. -/
theorem performedBy_branch (c : CondBits) (f : Fsm) : performedBy (c.branch f) = c.branch f := by
  cases f <;> simp only [CondBits.branch] <;> repeat' split
  all_goals rfl

/-- R108, R160: so is an operation that a local-port word decodes to. -/
theorem performedBy_of_decodeLocal {w : BitVec 20} {i : Instr} (h : decodeLocal w = .ok i) : performedBy i = i := by
  unfold decodeLocal at h
  split at h <;> cases h <;> rfl

/-- What `withFetchWord` sets for either engine format: the engine has the turn, and nothing keeps it from its step. -/
theorem State.withFetchWord_engine (s : State) {nbits : Nat} (hn : nbits ≤ 16) (w : Nat) :
    (s.withFetchWord nbits w).halted = false ∧ (s.withFetchWord nbits w).enabled = true ∧
      (s.withFetchWord nbits w).schedule = .engine :: s.schedule ∧ (s.withFetchWord nbits w).config = s.config := by
  rw [State.withFetchWord, if_pos hn]
  split <;> exact ⟨rfl, rfl, rfl, rfl⟩

/-- R105: the step of a state placed for the engine performs the branch of its first handled condition. -/
theorem step_withFetchWord_engine {s : State} {nbits w : Nat} (hn : nbits ≤ 16)
    (hpolicy : s.config.condPolicy = .priority) (hcond : (s.withFetchWord nbits w).cond ≠ 0#5) :
    step (s.withFetchWord nbits w) =
      exec ((s.withFetchWord nbits w).condBits.branch (s.withFetchWord nbits w).fsm)
        { s.withFetchWord nbits w with schedule := s.schedule } := by
  obtain ⟨hrun, henabled, hschedule, hconfig⟩ := s.withFetchWord_engine hn w
  have hdec := decodeBranch_state (s.withFetchWord nbits w)
  rw [hconfig, hpolicy, if_neg (by simp)] at hdec
  rw [step_of_schedule_engine hrun hschedule]
  refine engineTurn_eq_exec henabled hcond ?_
  rw [← hdec, ← hpolicy, ← hconfig]
  rfl

/-! ## A format-B word -/

/-- The transaction state a format-B word is placed in. -/
def placedFsm (w : Nat) : Fsm := Fsm.ofCode (BitVec.ofNat 2 (placedSelector w / 32))

/-- The conditions a format-B word is placed with. -/
def placedBits (w : Nat) : CondBits :=
  ⟨(placedSelector w).testBit 4, (placedSelector w).testBit 3, (placedSelector w).testBit 2,
    (placedSelector w).testBit 1, (placedSelector w).testBit 0⟩

theorem State.withFetchWord_branch_fsm (s : State) {nbits : Nat} (hn : nbits ≤ 8) (w : Nat) :
    (s.withFetchWord nbits w).fsm = placedFsm w := by
  rw [State.withFetchWord, if_pos hn]
  rfl

theorem State.withFetchWord_branch_condBits (s : State) {nbits : Nat} (hn : nbits ≤ 8) (w : Nat) :
    (s.withFetchWord nbits w).condBits = placedBits w := by
  have hrx : (s.withFetchWord nbits w).rx = (placedSelector w).testBit 1 := by
    rw [State.withFetchWord, if_pos hn]
    cases (placedSelector w).testBit 1 <;> cases s.rxq <;> simp [State.rx]
  rw [State.condBits, hrx, State.withFetchWord, if_pos hn]
  rfl

/-- R105, R110 (a): a placed selector has a condition pending. -/
theorem placedBits_word_ne_zero : ∀ w < 2 ^ 7, (placedBits w).word ≠ 0#5 := by decide

/-- R105: a placed selector selects what its word decodes to. -/
theorem decodeBranch_ofNat : ∀ w < 2 ^ 7,
    decodeBranch .priority (BitVec.ofNat 7 w) = .ok ((placedBits w).branch (placedFsm w)) := by decide

/-- R104, R105: a placed format-B word is the branch the next step runs. -/
theorem step_withFetchWord_branch {s : State} {nbits w : Nat} {i : Instr} (hn : nbits ≤ 8) (hw : w < 2 ^ 7)
    (hpolicy : s.config.condPolicy = .priority) (hdec : decodeBranch .priority (BitVec.ofNat 7 w) = .ok i) :
    performedBy i = i ∧
      step (s.withFetchWord nbits w) = exec i { s.withFetchWord nbits w with schedule := s.schedule } := by
  have hbits := s.withFetchWord_branch_condBits hn w
  have hfsm := s.withFetchWord_branch_fsm hn w
  have hcond : (s.withFetchWord nbits w).cond ≠ 0#5 := by
    have h := placedBits_word_ne_zero w hw
    rwa [← hbits] at h
  rw [decodeBranch_ofNat w hw] at hdec
  cases hdec
  rw [step_withFetchWord_engine (by omega) hpolicy hcond, hbits, hfsm]
  exact ⟨performedBy_branch _ _, rfl⟩

/-! ## A format-C word -/

/-- R107: the three fields of an event word given as a number. -/
theorem ofNat_eq_eventWord (w : Nat) :
    BitVec.ofNat 11 w = eventWord (BitVec.ofNat 2 (w / 512)) (w.testBit 8) (BitVec.ofNat 8 w) := by
  apply BitVec.eq_of_getLsbD_eq
  intro k hk
  simp only [eventWord, BitVec.getLsbD_append, BitVec.getLsbD_ofNat]
  rw [show (512 : Nat) = 2 ^ 9 from rfl, Nat.testBit_div_two_pow]
  by_cases h8 : k < 8
  · simp [h8, hk]
  · by_cases h9 : k = 8
    · subst h9; simp
    · simp [h8, hk, show ¬ k - 8 < 1 by omega, show k - 8 - 1 < 2 by omega, show k - 8 - 1 + 9 = k by omega]

/-- R107: an event word decodes by `ev`, and by `wip` where `ev` is 0. -/
theorem decodeEvent_eventWord (ev : BitVec 2) (wip : Bool) (b : Byte) :
    decodeEvent (eventWord ev wip b) =
      if ev = 0#2 then .ok (if wip then .receiveData b else .receiveAddr b)
      else if ev = 1#2 then .ok .request
      else if ev = 2#2 then .ok .finish
      else .error .unusedSlaveEvent := by
  have hev : ev = 0#2 ∨ ev = 1#2 ∨ ev = 2#2 ∨ ev = 3#2 := by revert ev; decide
  rw [decodeEvent, eventWord_masked ev wip b 0x700#11 (by decide), eventWord_masked ev wip b 0x600#11 (by decide),
    eventWord_data]
  rcases hev with rfl | rfl | rfl | rfl <;> cases wip <;> rfl

/-- R107: what a format-C table word decodes to, by its `ev` field. -/
theorem decodeEvent_ofNat_cases {w : Nat} {i : Instr} (hw : w < 2 ^ 11) (h : decodeEvent (BitVec.ofNat 11 w) = .ok i) :
    (w / 512 = 0 ∧ i = if w.testBit 8 then .receiveData (BitVec.ofNat 8 w) else .receiveAddr (BitVec.ofNat 8 w)) ∨
      (w / 512 = 1 ∧ i = .request) ∨ (w / 512 = 2 ∧ i = .finish) := by
  rw [ofNat_eq_eventWord, decodeEvent_eventWord] at h
  obtain he | he | he | he : w / 512 = 0 ∨ w / 512 = 1 ∨ w / 512 = 2 ∨ w / 512 = 3 := by omega
  all_goals rw [he] at h; cases h
  · exact .inl ⟨he, rfl⟩
  · exact .inr (.inl ⟨he, rfl⟩)
  · exact .inr (.inr ⟨he, rfl⟩)

/-- R100, R107: the fields that a placed format-C word sets. -/
theorem State.withFetchWord_event (s : State) {nbits : Nat} (h8 : 8 < nbits) (h16 : nbits ≤ 16) (w : Nat) :
    (s.withFetchWord nbits w).writeInProgress = w.testBit 8 ∧
      (s.withFetchWord nbits w).fsm = (if w / 512 = 1 then .read else .write) ∧
      (s.withFetchWord nbits w).pend = ⟨false, w / 512 = 1, w / 512 = 2, false⟩ ∧
      (s.withFetchWord nbits w).rxq = if w / 512 = 0 then BitVec.ofNat 8 w :: s.rxq.tail else [] := by
  rw [State.withFetchWord, if_neg (by omega), if_pos h16]
  exact ⟨rfl, rfl, rfl, rfl⟩

/-- R100, R160: a placed format-C word is run inside the branch that raises it. -/
theorem step_withFetchWord_event {s : State} {nbits w : Nat} {i : Instr} (h8 : 8 < nbits) (h16 : nbits ≤ 16)
    (hw : w < 2 ^ 11) (hpolicy : s.config.condPolicy = .priority) (hdec : decodeEvent (BitVec.ofNat 11 w) = .ok i) :
    step (s.withFetchWord nbits w) = exec (performedBy i) { s.withFetchWord nbits w with schedule := s.schedule } := by
  obtain ⟨-, hfsm, hpend, hrxq⟩ := s.withFetchWord_event h8 h16 w
  have hcond : (s.withFetchWord nbits w).cond ≠ 0#5 := by
    rw [Ne, State.cond_eq_zero_iff, hpend, hrxq]
    rcases decodeEvent_ofNat_cases hw hdec with ⟨he, -⟩ | ⟨he, -⟩ | ⟨he, -⟩ <;> simp [he]
  rw [step_withFetchWord_engine h16 hpolicy hcond, State.condBits, State.rx, hfsm, hpend, hrxq]
  rcases decodeEvent_ofNat_cases hw hdec with ⟨he, rfl⟩ | ⟨he, rfl⟩ | ⟨he, rfl⟩
  · cases w.testBit 8 <;> simp [he, CondBits.branch, performedBy]
  · simp [he, CondBits.branch, performedBy]
  · simp [he, CondBits.branch, performedBy]

/-- R161, R162: a placed RECEIVE stands before its branch, its byte at the head of the queue and its `wip` set. -/
theorem withFetchWord_receive {s : State} {nbits w : Nat} {i : Instr} (h8 : 8 < nbits) (h16 : nbits ≤ 16)
    (hw : w < 2 ^ 11) (hdec : decodeEvent (BitVec.ofNat 11 w) = .ok i) :
    (∀ b, i = .receiveAddr b → (s.withFetchWord nbits w).writeInProgress = false ∧
        ∃ rest, (s.withFetchWord nbits w).rxq = b :: rest) ∧
      ∀ b, i = .receiveData b → (s.withFetchWord nbits w).writeInProgress = true ∧
        ∃ rest, (s.withFetchWord nbits w).rxq = b :: rest := by
  obtain ⟨hwip, -, -, hrxq⟩ := s.withFetchWord_event h8 h16 w
  rw [hwip, hrxq]
  rcases decodeEvent_ofNat_cases hw hdec with ⟨he, rfl⟩ | ⟨-, rfl⟩ | ⟨-, rfl⟩
  · cases w.testBit 8 <;> simp [he]
  · exact ⟨nofun, nofun⟩
  · exact ⟨nofun, nofun⟩

/-! ## A format-L word -/

/-- R108, R180: a placed format-L word is the local-port operation the next step runs. -/
theorem step_withFetchWord_local {s : State} {nbits w : Nat} {i : Instr} (hn : 16 < nbits)
    (hdec : decodeLocal (BitVec.ofNat 20 w) = .ok i) :
    step (s.withFetchWord nbits w) = exec i { s.withFetchWord nbits w with schedule := s.schedule } := by
  have hfields : (s.withFetchWord nbits w).halted = false ∧ (s.withFetchWord nbits w).passInProgress = none ∧
      (s.withFetchWord nbits w).schedule = .localOp (BitVec.ofNat 20 w) :: s.schedule := by
    rw [State.withFetchWord, if_neg (by omega), if_neg (by omega)]
    exact ⟨rfl, rfl, rfl⟩
  obtain ⟨hrun, hpass, hschedule⟩ := hfields
  rw [step_of_schedule_localOp hrun hschedule hpass, localTurn_eq_exec hdec]

/-- Settles O8: a word of each of the three widths by the step from where it is placed. -/
theorem placedTableWordIsRunByTheNextStep : Obligations.PlacedTableWordIsRunByTheNextStep := by
  intro s nbits w i hpolicy hdec placed
  rcases decodeTableWord_cases hdec with ⟨hn, hw, hdec⟩ | ⟨h8, h16, hw, hdec⟩ | ⟨hn, hdec⟩
  · obtain ⟨hself, hstep⟩ := step_withFetchWord_branch hn hw hpolicy hdec
    exact ⟨hself.symm ▸ hstep, forall_receive_of_performedBy_self hself⟩
  · exact ⟨step_withFetchWord_event h8 h16 hw hpolicy hdec, withFetchWord_receive h8 h16 hw hdec⟩
  · have hself := performedBy_of_decodeLocal hdec
    exact ⟨hself.symm ▸ step_withFetchWord_local hn hdec, forall_receive_of_performedBy_self hself⟩

end Sys2Proof.Machine

/-! # Proofs: the engine and the polling context, protection, the gate -/

namespace Sys2Proof.Machine

/-! ## The engine step under another polling context (R90) -/

namespace State.sameForEngine

variable {s s' : State}

theorem config_eq (h : s.sameForEngine s') : s'.config = s.config := by rw [h]

theorem cursor_eq (h : s.sameForEngine s') : s'.cursor = s.cursor := by rw [h]

theorem rxq_eq (h : s.sameForEngine s') : s'.rxq = s.rxq := by rw [h]

theorem writeInProgress_eq (h : s.sameForEngine s') : s'.writeInProgress = s.writeInProgress := by rw [h]

theorem requestByte_eq (h : s.sameForEngine s') : s'.requestByte = s.requestByte := by
  rw [h]
  rfl

/-- R130, R104: such states have an engine step together, and select the same branch. -/
theorem selection_eq (h : s.sameForEngine s') :
    s'.enabled = s.enabled ∧ s'.cond = s.cond ∧
      decodeBranch s'.config.condPolicy s'.selector = decodeBranch s.config.condPolicy s.selector := by
  rw [h]
  exact ⟨rfl, rfl, rfl⟩

theorem clear (h : s.sameForEngine s') (c : Latched) : (s.clear c).sameForEngine (s'.clear c) := by
  rw [h]
  rfl

theorem setFsm (h : s.sameForEngine s') (f : Fsm) : (s.setFsm f).sameForEngine (s'.setFsm f) := by
  rw [h]
  rfl

theorem rxDrop (h : s.sameForEngine s') : s.rxDrop.sameForEngine s'.rxDrop := by
  rw [h]
  rfl

theorem txPush (h : s.sameForEngine s') (b : Byte) : (s.txPush b).sameForEngine (s'.txPush b) := by
  rw [h]
  rfl

theorem finish (h : s.sameForEngine s') : s.finish.sameForEngine s'.finish := by
  rw [h]
  rfl

theorem recover (h : s.sameForEngine s') (cause : RecoverCause) :
    (s.recover cause).sameForEngine (s'.recover cause) := by
  rw [h, State.recover_eq, State.recover_eq]
  rfl

/-- R76: a bus write looks at the read-only table, which is not the polling context's. -/
theorem busWrite (h : s.sameForEngine s') (a : Addr) (v : Byte) :
    (s.busWrite a v).sameForEngine (s'.busWrite a v) := by
  have hro : s'.ro a = s.ro a := by rw [h]; rfl
  unfold State.busWrite
  rw [hro]
  split
  · exact h
  · rw [h]; rfl

theorem withCursor (h : s.sameForEngine s') (c : Addr) :
    ({ s with cursor := c } : State).sameForEngine { s' with cursor := c } := by
  rw [h]
  rfl

theorem acknowledge (h : s.sameForEngine s') : s.acknowledge.sameForEngine s'.acknowledge := by
  rw [h]
  rfl

/-- R137: the address phase and the data phase. -/
theorem receive (h : s.sameForEngine s') (b : Byte) : (s.receive b).sameForEngine (s'.receive b) := by
  cases hwip : s.writeInProgress with
  | false =>
    rw [State.receive_of_not_wip hwip, State.receive_of_not_wip (h.writeInProgress_eq.trans hwip), h]
    rfl
  | true =>
    rw [State.receive_of_wip hwip, State.receive_of_wip (h.writeInProgress_eq.trans hwip)]
    unfold State.receiveData
    rw [h.cursor_eq]
    exact (h.busWrite s.cursor b).withCursor _

/-- R163, R164: REQUEST, with the acknowledge and without it. -/
theorem request (h : s.sameForEngine s') : s.request.sameForEngine s'.request := by
  have hwip : (s.setWip false).sameForEngine (s'.setWip false) := h.finish
  unfold State.request
  rw [h.cursor_eq, h.config_eq]
  split
  · exact hwip.acknowledge.withCursor _
  · exact hwip.withCursor _

/-- R90, branch by branch. -/
theorem exec_branch {i : Instr} {t : State} (h : s.sameForEngine s') (hi : branchTarget i ≠ none)
    (hexec : exec i s = .next t) : ∃ t', exec i s' = .next t' ∧ t.sameForEngine t' := by
  cases i
  case tWriteRx =>
    obtain ⟨b, rest, hq, rfl⟩ := tWriteRx_next hexec
    have hrun : exec .tWriteRx s' = .next (s'.rxDrop.receive b) := by
      simp [exec, execTWriteRx, h.rxq_eq, hq]
    exact ⟨_, hrun, h.rxDrop.receive b⟩
  case tIdleStart => cases hexec; exact ⟨_, rfl, (h.clear .sd).setFsm .start⟩
  case tIdleAbort => cases hexec; exact ⟨_, rfl, h.clear .ab⟩
  case tStartWrite => cases hexec; exact ⟨_, rfl, h.setFsm .write⟩
  case tStartRead | tWriteRdreq => cases hexec; exact ⟨_, rfl, h.setFsm .read⟩
  case tWriteRestart => cases hexec; exact ⟨_, rfl, (h.clear .sd).setFsm .read⟩
  case tWriteStop | tReadStop => cases hexec; exact ⟨_, rfl, (h.clear .sp).finish.setFsm .idle⟩
  case tIdleRecover | tStartFault | tWriteRecover | tReadRecover => cases hexec; exact ⟨_, rfl, h.recover _⟩
  case tReadReq => cases hexec; exact ⟨_, rfl, h.requestByte_eq ▸ h.request.txPush _⟩
  all_goals exact absurd rfl hi

end State.sameForEngine

/-- Settles O37: such states select the same branch, and it keeps their agreement. -/
theorem engineDependsOnNothingOfThePollingContext : Obligations.EngineDependsOnNothingOfThePollingContext := by
  intro s s' t h ht
  obtain ⟨henabled, hcond, hdec⟩ := h.selection_eq
  rcases engineTurn_cases ht with ⟨rfl, hidle⟩ | ⟨hs, hc, i, hi, hexec⟩
  · rw [← henabled, ← hcond] at hidle
    refine ⟨s', if_neg ?_, h⟩
    rintro ⟨he, hne⟩
    rcases hidle with hidle | hidle
    · rw [he] at hidle; cases hidle
    · exact hne hidle
  · obtain ⟨t', hexec', hsame⟩ := h.exec_branch (branchTarget_of_selected hi) hexec
    exact ⟨t', (engineTurn_eq_exec (henabled.trans hs) (hcond ▸ hc) (hdec.trans hi)).trans hexec', hsame⟩

/-! ## The read-only table (R80, R252) -/

/-- R163, R164: REQUEST, the acknowledge included, does not look at the table. -/
theorem State.request_withTable (s : State) (table : BitTable) :
    ({ s with readOnly := table } : State).request = { s.request with readOnly := table } := by
  unfold State.request
  dsimp only
  split <;> rfl

/-- R137, R161: in the address phase `T_WRITE_RX` is RECEIVE.ADDR on the oldest byte. -/
theorem tWriteRx_of_not_wip {s : State} {b : Byte} {rest : List Byte} (hq : s.rxq = b :: rest)
    (hwip : s.writeInProgress = false) :
    exec .tWriteRx s = .next (({ s with rxq := rest } : State).receiveAddr b) := by
  rw [exec, execTWriteRx_eq hq, State.receive_of_not_wip (s := { s with rxq := rest }) hwip]

/-- R80: an operation that is no bus write behaves alike under every table. -/
theorem exec_withTable {i : Instr} {s t : State} (table : BitTable) (h : exec i s = .next t)
    (hdata : ∀ b, i ≠ .receiveData b) (hregwr : ∀ a v, i ≠ .regwr a v)
    (hwip : i = .tWriteRx → s.writeInProgress = false) :
    exec i { s with readOnly := table } = .next { t with readOnly := table } := by
  cases i
  case receiveData b => exact absurd rfl (hdata b)
  case regwr a v => exact absurd rfl (hregwr a v)
  case tWriteRx =>
    obtain ⟨b, rest, hq, -⟩ := tWriteRx_next h
    rw [tWriteRx_of_not_wip hq (hwip rfl)] at h
    cases h
    exact tWriteRx_of_not_wip (s := { s with readOnly := table }) hq (hwip rfl)
  case init a =>
    obtain ⟨hdisabled, rfl⟩ := init_next h
    simp [exec, execInit, hdisabled]
  case deinit =>
    obtain ⟨henabled, hidle, rfl⟩ := deinit_next h
    simp [exec, execDeinit, henabled, hidle]
  all_goals cases h
  case tReadReq | request => simp only [exec, execTReadReq, execRequest, State.request_withTable]; rfl
  case arbResolve => simp only [exec, execArbResolve, State.arbResolve_eq]
  case tIdleRecover | tStartFault | tWriteRecover | tReadRecover =>
    simp only [exec, execTIdleRecover, execTStartFault, execTWriteRecover, execTReadRecover, State.recover_eq]
  all_goals rfl

/-- R76, R252: a bus write drops the byte at a read-only address. -/
theorem State.busWrite_of_ro {s : State} {a : Addr} (h : s.ro a = true) (v : Byte) : s.busWrite a v = s :=
  if_pos h

/-- Settles O59: `exec_withTable` for what is no bus write, `State.busWrite_of_ro` for what is. -/
theorem protectionIsTheReadOnlyTableAlone : Obligations.ProtectionIsTheReadOnlyTableAlone := by
  refine ⟨fun i s t table h hdata hregwr hwip => exec_withTable table h hdata hregwr hwip, fun s a v hro => ?_,
    fun s b hro => ?_, fun i s t h => ?_⟩
  · rw [exec, execRegwr, State.busWrite_of_ro hro]
    rfl
  · rw [exec, execReceiveData, State.receiveData, State.busWrite_of_ro hro]
    rfl
  · obtain ⟨-, htable, -⟩ := exec_keeps h
    exact htable

/-! ## The gate (R82, R210) -/

/-- R217: a Dispatcher turn begins a pass while none is in progress. -/
theorem step_of_schedule_pass {s : State} {d : Draws} {rest : List Turn} (h : s.halted = false)
    (hs : s.schedule = .pass d :: rest) (hp : s.passInProgress = none) :
    step s = .next (({ s with schedule := rest } : State).passTurn d) := by
  rw [step_of_not_halted h, moveNext, hs]
  simp [hp]

theorem State.passRun_of_no_pass {s : State} (h : s.passInProgress = none) (n : Nat) : State.passRun n s = s := by
  cases n with
  | zero => rfl
  | succ n => simp [State.passRun, h]

/-- R210: behind a closed gate a pass is TIP alone, in either setting. -/
theorem State.passTurn_of_closed {s : State} (hfsm : s.fsm ≠ .idle) (hp : s.passInProgress = none) (d : Draws) :
    s.passTurn d = { s with readData := some 0x01#8 } := by
  have hbegin : s.passBegin d = { s with readData := some 0x01#8 } := by
    simp [State.passBegin, hfsm, State.tip, State.setReadData, boolByte]
  rw [State.passTurn, hbegin]
  split
  · rfl
  · exact State.passRun_of_no_pass (s := { s with readData := some 0x01#8 }) hp _

/-- R210, R217: behind an open gate an interleaved pass begins with step 1. -/
theorem State.passTurn_of_open {s : State} (hfsm : s.fsm = .idle) (hatom : s.config.passAtomicity = .interleaved)
    (d : Draws) :
    s.passTurn d = { s with readData := some 0x00#8, passInProgress := some ⟨d, .line⟩ } := by
  simp [State.passTurn, hatom, State.passBegin, hfsm, State.tip, State.setReadData, State.goTo, boolByte]

/-- R211: step 1 of a pass is `ARB_RESOLVE`. -/
theorem State.passStep_line {s : State} {d : Draws} (h : s.passInProgress = some ⟨d, .line⟩) :
    s.passStep = { s.arbResolve with passInProgress := some ⟨d, .modTest 0x00#8⟩ } := by
  rw [State.passStep, h]
  rfl

/-- Settles O49: the gate test by its two outcomes, and the micro-step of step 1. -/
theorem gateDecidesThePass : Obligations.GateDecidesThePass := by
  refine ⟨fun s d rest hrun hp hs => ⟨fun hfsm => ?_, fun hfsm hatom => ?_⟩,
    fun s d h => ⟨s.arbResolve, rfl, State.passStep_line h⟩⟩
  · have hturn := State.passTurn_of_closed (s := { s with schedule := rest }) hfsm hp d
    rw [step_of_schedule_pass hrun hs hp, hturn]
  · have hturn := State.passTurn_of_open (s := { s with schedule := rest }) hfsm hatom d
    rw [step_of_schedule_pass hrun hs hp, hturn]

end Sys2Proof.Machine

/-! # Proofs: the encodings -/

namespace Sys2Proof.Machine

/-! ## Encoded words and refused words (R105, R107, R108, R110) -/

/-- Settles O1: format B by its fourteen selectors, formats C and L by the fields of their words. -/
theorem decodeOfEncodeIsTheInstruction : Obligations.DecodeOfEncodeIsTheInstruction := by
  intro p i
  cases i
  case receiveAddr b => exact decodeEvent_receive false b
  case receiveData b => exact decodeEvent_receive true b
  case request | finish => exact decodeEvent_eventWord _ false 0#8
  case init | deinit | tip | regwr | lpRead | lpStore | lpModtest | lpModclr | arbSetTarget | arbResolve
    | setCrashDebug | setResetAttempted | getResetAllowed => simp [encode, decode, decodeLocal]
  all_goals cases p <;> rfl

/-- R107: every event word is made of its three fields, `ev` the two leading bits. -/
theorem exists_eventWord_eq (w : BitVec 11) :
    ∃ ev wip b, w = eventWord ev wip b ∧ w.extractLsb' 9 2 = ev := by
  have hw := ofNat_eq_eventWord w.toNat
  have hev : BitVec.ofNat 2 (w.toNat / 512) = w.extractLsb' 9 2 := by
    rw [BitVec.extractLsb', Nat.shiftRight_eq_div_pow]
  rw [BitVec.ofNat_toNat, BitVec.setWidth_eq, hev] at hw
  exact ⟨_, _, _, hw, rfl⟩

/-- R107, R110 (b): the event word refused is the one whose `ev` field is 3. -/
theorem decodeEvent_error_iff (w : BitVec 11) : (∃ r, decodeEvent w = .error r) ↔ w.extractLsb' 9 2 = 3#2 := by
  have hcases : ∀ ev : BitVec 2, ev = 0#2 ∨ ev = 1#2 ∨ ev = 2#2 ∨ ev = 3#2 := by decide
  obtain ⟨ev, wip, b, hw, hev⟩ := exists_eventWord_eq w
  rw [hev, hw, decodeEvent_eventWord]
  obtain rfl | rfl | rfl | rfl := hcases ev <;> simp

/-- R108, R110 (c): the local-port words refused are those whose `op` field is 13 to 15. -/
theorem decodeLocal_error_iff (w : BitVec 20) :
    (∃ r, decodeLocal w = .error r) ↔ 13 ≤ (w.extractLsb' 16 4).toNat := by
  change _ ↔ 13 ≤ (localOpField w).toNat
  unfold decodeLocal
  split
  case h_14 => exact iff_of_true ⟨_, rfl⟩ (by simp only [imp_false] at *; omega)
  all_goals exact iff_of_false (fun ⟨_, h⟩ => nomatch h) (by omega)

/-- Settles O2, one format after the other. -/
theorem refusedWordsAreExactlyTheReservedOnes : Obligations.RefusedWordsAreExactlyTheReservedOnes :=
  ⟨decodeBranch_total, decodeEvent_error_iff, decodeLocal_error_iff⟩

/-- Settles O3: eight words, decoded by evaluation. -/
theorem specWordsDecodeAsTheSpecSays : Obligations.SpecWordsDecodeAsTheSpecSays := by
  unfold Obligations.SpecWordsDecodeAsTheSpecSays
  decide

/-! ## The row of each branch in step 2 of R105 -/

/-- "selected when" of R131 to R145: a branch's state, and the tests by which it is the first row to match there. -/
def State.firstMatch (s : State) : Instr → Prop
  | .tIdleStart => s.fsm = .idle ∧ s.pend.sd = true
  | .tIdleAbort => s.fsm = .idle ∧ s.pend.ab = true ∧ s.pend.sd = false
  | .tIdleRecover => s.fsm = .idle ∧ s.pend.sd = false ∧ s.pend.ab = false
  | .tStartWrite => s.fsm = .start ∧ s.rxq ≠ []
  | .tStartRead => s.fsm = .start ∧ s.pend.rr = true ∧ s.rxq = []
  | .tStartFault => s.fsm = .start ∧ s.rxq = [] ∧ s.pend.rr = false
  | .tWriteRx => s.fsm = .write ∧ s.rxq ≠ []
  | .tWriteStop => s.fsm = .write ∧ s.pend.sp = true ∧ s.rxq = []
  | .tWriteRestart => s.fsm = .write ∧ s.pend.sd = true ∧ s.rxq = [] ∧ s.pend.sp = false
  | .tWriteRdreq => s.fsm = .write ∧ s.pend.rr = true ∧ s.pend.sd = false ∧ s.rxq = [] ∧ s.pend.sp = false
  | .tWriteRecover => s.fsm = .write ∧ s.rxq = [] ∧ s.pend.sp = false ∧ s.pend.sd = false ∧ s.pend.rr = false
  | .tReadReq => s.fsm = .read ∧ s.pend.rr = true
  | .tReadStop => s.fsm = .read ∧ s.pend.sp = true ∧ s.pend.rr = false
  | .tReadRecover => s.fsm = .read ∧ s.pend.rr = false ∧ s.pend.sp = false
  | _ => False

/-- R105, step 2, R131 to R145: the first row to match is the one whose tests hold. -/
theorem State.branch_eq_iff (s : State) (i : Instr) : s.condBits.branch s.fsm = i ↔ s.firstMatch i := by
  constructor
  · rintro rfl
    generalize hf : s.fsm = f
    fun_cases CondBits.branch <;> simp_all [State.firstMatch, State.condBits, State.rx]
  · cases i <;> simp +contextual [State.firstMatch, CondBits.branch, State.condBits, State.rx]

/-! ## `UNRECOG` of each state, step 1 of R105 -/

theorem State.handled_idle_iff (s : State) :
    s.condBits.unhandled .idle = false ↔ s.rxq = [] ∧ s.pend.rr = false ∧ s.pend.sp = false := by
  simp [CondBits.unhandled, State.condBits, State.rx, and_assoc]

theorem State.handled_start_iff (s : State) :
    s.condBits.unhandled .start = false ↔ s.pend.sd = false ∧ s.pend.sp = false ∧ s.pend.ab = false := by
  simp [CondBits.unhandled, State.condBits, and_assoc]

theorem State.handled_write_iff (s : State) : s.condBits.unhandled .write = false ↔ s.pend.ab = false := Iff.rfl

theorem State.handled_read_iff (s : State) :
    s.condBits.unhandled .read = false ↔ s.pend.sd = false ∧ s.rxq = [] ∧ s.pend.ab = false := by
  simp [CondBits.unhandled, State.condBits, State.rx, and_assoc]

/-! ## Selection under `strict` (R105, D6, D7) -/

theorem recoveryOf_injective : Function.Injective recoveryOf := by
  intro f g h
  cases f <;> cases g <;> cases h <;> rfl

/-- A recovery row is the first to match only with no handled condition pending, and `COND` is not 0: an unhandled
condition is then pending. -/
theorem State.not_firstMatch_recoveryOf {s : State} (hcond : s.cond ≠ 0#5)
    (hhandled : s.condBits.unhandled s.fsm = false) (f : Fsm) : ¬s.firstMatch (recoveryOf f) := by
  intro hrow
  apply hcond
  rw [s.cond_eq_zero_iff]
  rcases hp : s.pend with ⟨sd, rr, sp, ab⟩
  cases f <;>
    simp_all [recoveryOf, State.firstMatch, State.handled_idle_iff, State.handled_start_iff, State.handled_write_iff,
      State.handled_read_iff]

/-- The two steps of R105: the state's recovery row on an unhandled condition, else the first row to match. -/
theorem selects_iff_of_strict {s : State} (hp : s.config.condPolicy = .strict) (i : Instr) :
    decodeBranch s.config.condPolicy s.selector = .ok i ↔
      (s.condBits.unhandled s.fsm = true ∧ recoveryOf s.fsm = i) ∨
        (s.condBits.unhandled s.fsm = false ∧ s.firstMatch i) := by
  rw [decodeBranch_state, Except.ok.injEq, ite_eq_iff, s.branch_eq_iff]
  simp only [hp, true_and, Bool.not_eq_true]

/-- The recovery row of a state is selected by step 1 alone. -/
theorem selects_recoveryOf_iff {s : State} {f : Fsm} {handled : Prop} (hp : s.config.condPolicy = .strict)
    (hcond : s.cond ≠ 0#5) (hhandled : s.condBits.unhandled f = false ↔ handled) :
    decodeBranch s.config.condPolicy s.selector = .ok (recoveryOf f) ↔ s.fsm = f ∧ ¬handled := by
  rw [selects_iff_of_strict hp, ← hhandled, Bool.not_eq_false]
  constructor
  · rintro (⟨hstep1, hf⟩ | ⟨hstep2, hrow⟩)
    · cases recoveryOf_injective hf
      exact ⟨rfl, hstep1⟩
    · exact absurd hrow (State.not_firstMatch_recoveryOf hcond hstep2 f)
  · rintro ⟨rfl, hstep1⟩
    exact .inl ⟨hstep1, rfl⟩

/-- Any other row is selected by step 2 alone. -/
theorem selects_iff_of_firstMatch {s : State} {i : Instr} {f : Fsm} {handled test : Prop}
    (hp : s.config.condPolicy = .strict) (hhandled : s.condBits.unhandled f = false ↔ handled)
    (hrow : s.firstMatch i ↔ s.fsm = f ∧ test) (hi : ∀ g, recoveryOf g ≠ i) :
    decodeBranch s.config.condPolicy s.selector = .ok i ↔ s.fsm = f ∧ handled ∧ test := by
  rw [selects_iff_of_strict hp, hrow, ← hhandled, or_iff_right (fun h => hi s.fsm h.2), and_left_comm]
  exact and_congr_right (fun hf => by rw [hf])

/-- Settles O5: the recovery rows by `selects_recoveryOf_iff`, the others by `selects_iff_of_firstMatch`. -/
theorem strictRecoversOnAnyUnhandledCondition : Obligations.StrictRecoversOnAnyUnhandledCondition := by
  intro s hp hcond sel onlyIdle onlyStart onlyRead
  have hidle := s.handled_idle_iff
  have hstart := s.handled_start_iff
  have hwrite := s.handled_write_iff
  have hread := s.handled_read_iff
  have habort : ¬s.pend.ab = false ↔ s.pend.ab = true := by rw [Bool.not_eq_false]
  refine ⟨selects_recoveryOf_iff hp hcond hidle, selects_iff_of_firstMatch hp hidle Iff.rfl ?_,
    selects_iff_of_firstMatch hp hidle Iff.rfl ?_, selects_recoveryOf_iff hp hcond hstart,
    selects_iff_of_firstMatch hp hstart Iff.rfl ?_, selects_iff_of_firstMatch hp hstart Iff.rfl ?_,
    (selects_recoveryOf_iff hp hcond hwrite).trans (and_congr_right' habort),
    selects_iff_of_firstMatch hp hwrite Iff.rfl ?_, selects_iff_of_firstMatch hp hwrite Iff.rfl ?_,
    selects_iff_of_firstMatch hp hwrite Iff.rfl ?_, selects_iff_of_firstMatch hp hwrite Iff.rfl ?_,
    selects_recoveryOf_iff hp hcond hread, selects_iff_of_firstMatch hp hread Iff.rfl ?_,
    selects_iff_of_firstMatch hp hread Iff.rfl ?_⟩
  -- what is left: none of the rows selected by step 2 is a recovery row
  all_goals rintro (_ | _ | _ | _) <;> nofun

end Sys2Proof.Machine

/-! # Proofs: the engine's branches, its graph and its progress -/

namespace Sys2Proof.Machine

/-! ## Each branch by itself (R130 to R145) -/

/-- R130: not enabled, or with nothing pending, the engine has no step. -/
theorem engineTurn_of_no_step {s : State} (h : s.enabled = false ∨ s.cond = 0#5) : engineTurn s = .next s := by
  refine if_neg ?_
  rintro ⟨henabled, hcond⟩
  rcases h with hdisabled | hrest
  · rw [henabled] at hdisabled; cases hdisabled
  · exact hcond hrest

/-- Settles O6: the selector of every state decodes, and the engine turn performs what it decodes to. -/
theorem engineTurnRunsTheSelectedBranch : Obligations.EngineTurnRunsTheSelectedBranch := by
  refine fun s => ⟨engineTurn_of_no_step, fun henabled hcond => ?_⟩
  obtain ⟨i, hdec⟩ := decodeBranch_total s.config.condPolicy s.selector
  exact ⟨i, hdec, engineTurn_eq_exec henabled hcond hdec⟩

/-- Settles O12: each of the six is its pseudocode. -/
theorem eventlessBranchesMoveTheStateMachine : Obligations.EventlessBranchesMoveTheStateMachine :=
  fun _ => ⟨rfl, rfl, rfl, rfl, rfl, rfl⟩

/-- Settles O15: both are `Clear(SP)`, FINISH and the move to IDLE. -/
theorem stopBranchesFinishAndGoIdle : Obligations.StopBranchesFinishAndGoIdle :=
  fun _ => ⟨rfl, rfl⟩

/-- R137, R162: in the data phase `T_WRITE_RX` is RECEIVE.DATA on the oldest byte. -/
theorem tWriteRx_of_wip {s : State} {b : Byte} {rest : List Byte} (hq : s.rxq = b :: rest)
    (hwip : s.writeInProgress = true) :
    exec .tWriteRx s = .next (({ s with rxq := rest } : State).receiveData b) := by
  rw [exec, execTWriteRx_eq hq, State.receive_of_wip (s := { s with rxq := rest }) hwip]

/-- Settles O13: the address phase by `tWriteRx_of_not_wip`, the data phase by the laws of RECEIVE.DATA. -/
theorem writeRxDeliversTheOldestByte : Obligations.WriteRxDeliversTheOldestByte := by
  intro s b rest hq
  refine ⟨tWriteRx_of_not_wip hq, fun hwip => ⟨_, tWriteRx_of_wip hq hwip, State.receiveData_eq _ b, ?_, ?_⟩⟩
  all_goals
    intro a
    have hwritten : (a = s.cursor ∧ s.ro s.cursor = false) ↔ (a = s.cursor ∧ s.ro a = false) :=
      and_congr_right fun ha => by rw [ha]
  · exact (State.reg_receiveData _ b a).trans (if_congr hwritten rfl rfl)
  · exact (State.dirty_receiveData _ b a).trans (if_congr hwritten rfl rfl)

/-- R143: `T_READ_REQ` as a record, over REQUEST's own. -/
theorem State.readReq_eq (s : State) :
    s.request.txPush s.requestByte = { s with
      registers := s.request.registers, writeInProgress := false, cursor := s.cursor + 1#8
      target := if s.cursor = s.config.map.interrupt2 then false else s.target
      clearPending := if s.cursor = s.config.map.interrupt2 then true else s.clearPending
      txlog := s.txlog ++ [s.reg s.cursor], pend := { s.pend with rr := false } } := by
  conv_lhs => rw [State.request_eq]
  rfl

/-- Settles O16: the fields by `State.readReq_eq`, the registers by REQUEST's law. -/
theorem readReqSuppliesTheByteAtTheCursor : Obligations.ReadReqSuppliesTheByteAtTheCursor :=
  fun s => ⟨_, rfl, s.readReq_eq, s.reg_request⟩

/-- Settles O17: each of the four is `Recover` with its own label. -/
theorem recoveryBranchesClearEverythingSilently : Obligations.RecoveryBranchesClearEverythingSilently := by
  intro s recovered
  have hrecover : ∀ cause, s.recover cause = recovered cause := fun cause => by
    rw [State.recover_eq]
    cases hrr : s.pend.rr <;> simp [recovered, hrr]
  refine ⟨?_, ?_, ?_, ?_⟩ <;> exact congrArg Host.Outcome.next (hrecover _)

/-! ## What an engine step is (R105, R131 to R145) -/

/-- The engine's steps: a branch whose row is the first to match, or the recovery branch of the state. -/
inductive EngineStep (s : State) : Instr → State → Prop
  | idleStart (row : s.firstMatch .tIdleStart) : EngineStep s .tIdleStart ((s.clear .sd).setFsm .start)
  | idleAbort (row : s.firstMatch .tIdleAbort) : EngineStep s .tIdleAbort (s.clear .ab)
  | startWrite (row : s.firstMatch .tStartWrite) : EngineStep s .tStartWrite (s.setFsm .write)
  | startRead (row : s.firstMatch .tStartRead) : EngineStep s .tStartRead (s.setFsm .read)
  | writeRx (row : s.firstMatch .tWriteRx) (b : Byte) : EngineStep s .tWriteRx (s.rxDrop.receive b)
  | writeStop (row : s.firstMatch .tWriteStop) : EngineStep s .tWriteStop ((s.clear .sp).finish.setFsm .idle)
  | writeRestart (row : s.firstMatch .tWriteRestart) : EngineStep s .tWriteRestart ((s.clear .sd).setFsm .read)
  | writeRdreq (row : s.firstMatch .tWriteRdreq) : EngineStep s .tWriteRdreq (s.setFsm .read)
  | readReq (row : s.firstMatch .tReadReq) : EngineStep s .tReadReq (s.request.txPush s.requestByte)
  | readStop (row : s.firstMatch .tReadStop) : EngineStep s .tReadStop ((s.clear .sp).finish.setFsm .idle)
  | recover (cause : RecoverCause) : EngineStep s (recoveryOf s.fsm) (s.recover cause)

/-- R142: the recovery branch of every state is `Recover`. -/
theorem EngineStep.of_recoveryOf (s : State) :
    ∃ t, exec (recoveryOf s.fsm) s = .next t ∧ EngineStep s (recoveryOf s.fsm) t := by
  have hexec : ∃ cause, exec (recoveryOf s.fsm) s = .next (s.recover cause) := by
    cases s.fsm <;> exact ⟨_, rfl⟩
  obtain ⟨cause, hexec⟩ := hexec
  exact ⟨_, hexec, .recover cause⟩

/-- R131 to R145: the branch whose row is the first to match answers a next state. -/
theorem EngineStep.of_firstMatch {s : State} {i : Instr} (row : s.firstMatch i) :
    ∃ t, exec i s = .next t ∧ EngineStep s i t := by
  cases i
  case tIdleStart => exact ⟨_, rfl, .idleStart row⟩
  case tIdleAbort => exact ⟨_, rfl, .idleAbort row⟩
  case tStartWrite => exact ⟨_, rfl, .startWrite row⟩
  case tStartRead => exact ⟨_, rfl, .startRead row⟩
  case tWriteStop => exact ⟨_, rfl, .writeStop row⟩
  case tWriteRestart => exact ⟨_, rfl, .writeRestart row⟩
  case tWriteRdreq => exact ⟨_, rfl, .writeRdreq row⟩
  case tReadReq => exact ⟨_, rfl, .readReq row⟩
  case tReadStop => exact ⟨_, rfl, .readStop row⟩
  case tWriteRx =>
    obtain ⟨b, rest, hq⟩ := List.exists_cons_of_ne_nil row.2
    exact ⟨s.rxDrop.receive b, by simp [exec, execTWriteRx, hq], .writeRx row b⟩
  case tIdleRecover | tStartFault | tWriteRecover | tReadRecover =>
    have hfsm := row.1
    have hstep := EngineStep.of_recoveryOf s
    rwa [hfsm] at hstep
  all_goals exact row.elim

/-- R105: the selected branch is an engine step, under either policy. -/
theorem engineStep_of_selected {s : State} {i : Instr} (h : decodeBranch s.config.condPolicy s.selector = .ok i) :
    ∃ t, exec i s = .next t ∧ EngineStep s i t := by
  rcases branch_or_recovery h with rfl | rfl
  · exact EngineStep.of_recoveryOf s
  · exact EngineStep.of_firstMatch ((s.branch_eq_iff _).1 rfl)

/-- The same where the engine turn's answer is known. -/
theorem engineStep_of_engineTurn {s t : State} (hcond : s.cond ≠ 0#5) (henabled : s.enabled = true)
    (h : engineTurn s = .next t) : ∃ i, EngineStep s i t := by
  obtain ⟨i, hdec⟩ := decodeBranch_total s.config.condPolicy s.selector
  obtain ⟨u, hexec, hstep⟩ := engineStep_of_selected hdec
  rw [engineTurn_eq_exec henabled hcond hdec, hexec] at h
  cases h
  exact ⟨i, hstep⟩

/-! ## The graph (R147) -/

/-- R147: "the next state is a constant of the branch". -/
theorem EngineStep.branchTarget_eq {s t : State} {i : Instr} (h : EngineStep s i t) :
    branchTarget i = some t.fsm := by
  cases h with
  | idleAbort row => obtain ⟨hf, -⟩ := row; exact congrArg some hf.symm
  | writeRx row b => obtain ⟨hf, -⟩ := row; rw [State.receive_eq]; exact congrArg some hf.symm
  | readReq row => obtain ⟨hf, -⟩ := row; rw [State.readReq_eq]; exact congrArg some hf.symm
  | recover cause => rw [State.recover_eq]; cases s.fsm <;> rfl
  | idleStart | startWrite | startRead | writeStop | writeRestart | writeRdreq | readStop => rfl

/-- R147: the edges, and what leaves `IDLE`. -/
theorem EngineStep.edge {s t : State} {i : Instr} (h : EngineStep s i t) :
    (t.fsm = s.fsm ∨ t.fsm = .idle ∨ fsmEdge s.fsm t.fsm = true) ∧
      (s.fsm = .idle → t.fsm ≠ .idle → s.pend.sd = true) := by
  cases h with
  | idleStart row => obtain ⟨hf, hsd⟩ := row; exact ⟨.inr (.inr (by rw [hf]; rfl)), fun _ _ => hsd⟩
  | idleAbort => exact ⟨.inl rfl, fun hf hne => absurd hf hne⟩
  | writeRx _ b => rw [State.receive_eq]; exact ⟨.inl rfl, fun hf hne => absurd hf hne⟩
  | readReq => rw [State.readReq_eq]; exact ⟨.inl rfl, fun hf hne => absurd hf hne⟩
  | recover cause => rw [State.recover_eq]; exact ⟨.inr (.inl rfl), fun _ hne => absurd rfl hne⟩
  | writeStop | readStop => exact ⟨.inr (.inl rfl), fun _ hne => absurd rfl hne⟩
  | startWrite row | startRead row | writeRestart row | writeRdreq row =>
    obtain ⟨hf, -⟩ := row
    exact ⟨.inr (.inr (by rw [hf]; rfl)), fun hidle => by rw [hf] at hidle; cases hidle⟩

/-- Only an engine step takes `fsm` anywhere but to `IDLE`. -/
theorem Moves.stays_or_engineStep {s t : State} (h : Moves s t) :
    (t.fsm = s.fsm ∨ t.fsm = .idle) ∨ s.enabled = true ∧ ∃ i, EngineStep s i t := by
  cases h with
  | raise | push | noEngineStep => exact .inl (.inl rfl)
  | passTurn d => exact .inl (.inl (by rw [State.passTurn_eq]))
  | passStep => exact .inl (.inl (by rw [State.passStep_eq]))
  | @branch i _ henabled hdec hexec =>
    obtain ⟨u, hexec', hstep⟩ := engineStep_of_selected hdec
    cases hexec.symm.trans hexec'
    exact .inr ⟨henabled, i, hstep⟩
  | @localOp w i _ hdec hexec =>
    obtain ⟨htarget, -⟩ := decodeLocal_cases hdec
    by_cases hinit : ∃ a, i = .init a
    · obtain ⟨a, rfl⟩ := hinit
      obtain ⟨-, rfl⟩ := init_next hexec
      exact .inl (.inr rfl)
    by_cases hdeinit : i = .deinit
    · subst hdeinit
      obtain ⟨-, -, rfl⟩ := deinit_next hexec
      exact .inl (.inl rfl)
    · obtain ⟨-, -, hfsm⟩ := exec_frontEnd hexec (fun a ha => hinit ⟨a, ha⟩) hdeinit
      exact .inl (.inl (hfsm htarget))

/-- Settles O33: the target by `EngineStep.branchTarget_eq`; the edges by `EngineStep.edge`, since no other move takes
`fsm` anywhere but to `IDLE`. -/
theorem stateMachineFollowsItsGraph : Obligations.StateMachineFollowsItsGraph := by
  refine ⟨fun s i henabled hcond hdec => ?_, fun s t h => ?_⟩
  · obtain ⟨t, hexec, hstep⟩ := engineStep_of_selected hdec
    exact ⟨t, (engineTurn_eq_exec henabled hcond hdec).trans hexec, hstep.branchTarget_eq⟩
  · obtain ⟨rest, hmove⟩ := moves_of_step h
    rcases hmove.stays_or_engineStep with (hsame | hidle) | ⟨henabled, i, hstep⟩
    · exact ⟨.inl hsame, fun hidle hne => absurd (hsame.trans hidle) hne⟩
    · exact ⟨.inr (.inl hidle), fun _ hne => absurd hidle hne⟩
    · obtain ⟨hedge, hleave⟩ := hstep.edge
      exact ⟨hedge, fun hidle hne => ⟨hleave hidle hne, henabled⟩⟩

/-! ## Progress (R146) -/

/-- `COND` holds its latched bits as `pend` does. -/
theorem State.pend_eq_of_cond_eq {s t : State} (h : t.cond = s.cond) : t.pend = s.pend := by
  have hbit : ∀ k, t.cond.getLsbD k = s.cond.getLsbD k := fun k => by rw [h]
  have hsd := hbit 0
  have hrr := hbit 2
  have hsp := hbit 3
  have hab := hbit 4
  simp only [State.cond, BitVec.getLsbD_append, BitVec.getLsbD_ofBool] at hsd hrr hsp hab
  rcases hs : s.pend with ⟨sd, rr, sp, ab⟩
  rcases ht : t.pend with ⟨sd', rr', sp', ab'⟩
  simp_all

/-- `COND` grows by no bit where the latched conditions and the queue do not grow. -/
theorem State.cond_sub {s t : State} (hpend : ∀ c, t.pend.has c = true → s.pend.has c = true)
    (hq : t.rxq <:+ s.rxq) : t.cond &&& ~~~s.cond = 0#5 := by
  have hrx : t.rx = true → s.rx = true := fun ht => by
    cases hs : s.rxq with
    | nil => rw [hs, List.suffix_nil] at hq; simp [State.rx, hq] at ht
    | cons => simp [State.rx, hs]
  have hsd := hpend .sd
  have hrr := hpend .rr
  have hsp := hpend .sp
  have hab := hpend .ab
  apply BitVec.eq_of_getLsbD_eq
  intro k hk
  simp only [State.cond, BitVec.getLsbD_and, BitVec.getLsbD_not, BitVec.getLsbD_append, BitVec.getLsbD_ofBool]
  interval_cases k <;> simpa using by assumption

/-- R131 to R145: a branch raises no condition and queues no byte. -/
theorem EngineStep.adds_nothing {s t : State} {i : Instr} (h : EngineStep s i t) :
    (∀ c, t.pend.has c = true → s.pend.has c = true) ∧ t.rxq <:+ s.rxq := by
  have hdrop : ∀ c d, (s.pend.drop c).has d = true → s.pend.has d = true := fun c d => by
    cases c <;> cases d <;> simp [Pending.drop, Pending.has]
  cases h with
  | idleStart | writeRestart => exact ⟨hdrop .sd, List.suffix_rfl⟩
  | idleAbort => exact ⟨hdrop .ab, List.suffix_rfl⟩
  | writeStop | readStop => exact ⟨hdrop .sp, List.suffix_rfl⟩
  | startWrite | startRead | writeRdreq => exact ⟨fun _ => id, List.suffix_rfl⟩
  | writeRx _ b => rw [State.receive_eq]; exact ⟨fun _ => id, s.rxq.tail_suffix⟩
  | readReq => rw [State.readReq_eq]; exact ⟨hdrop .rr, List.suffix_rfl⟩
  | recover cause => rw [State.recover_eq]; exact ⟨fun c hc => (by cases c <;> cases hc), s.rxq.tail_suffix⟩

theorem EngineStep.cond_sub {s t : State} {i : Instr} (h : EngineStep s i t) : t.cond &&& ~~~s.cond = 0#5 :=
  State.cond_sub h.adds_nothing.1 h.adds_nothing.2

/-- R146, branch by branch: `fsm` moves, the latched conditions change, or the queue gets shorter. -/
theorem EngineStep.progress {s t : State} {i : Instr} (h : EngineStep s i t) (hcond : s.cond ≠ 0#5) :
    t.fsm ≠ s.fsm ∨ t.pend ≠ s.pend ∨ t.rxq.length < s.rxq.length := by
  cases h with
  | idleStart row | startWrite row | startRead row | writeStop row | writeRestart row | writeRdreq row
    | readStop row => obtain ⟨hf, -⟩ := row; exact .inl (by rw [hf]; nofun)
  | idleAbort row =>
    obtain ⟨-, hab, -⟩ := row
    refine .inr (.inl fun h => ?_)
    rw [← h] at hab
    cases hab
  | readReq row =>
    obtain ⟨-, hrr⟩ := row
    rw [State.readReq_eq]
    refine .inr (.inl fun h => ?_)
    rw [← h] at hrr
    cases hrr
  | writeRx row b =>
    obtain ⟨-, hq⟩ := row
    rw [State.receive_eq]
    have := List.length_pos_iff.2 hq
    exact .inr (.inr (by simp; omega))
  | recover cause =>
    rw [State.recover_eq]
    by_cases hpend : s.pend = ⟨false, false, false, false⟩
    · have hq : s.rxq ≠ [] := fun hq => hcond (s.cond_eq_zero_iff.2 ⟨hpend, hq⟩)
      have := List.length_pos_iff.2 hq
      exact .inr (.inr (by simp; omega))
    · exact .inr (.inl (Ne.symm hpend))

/-- Settles O39: by `EngineStep.progress`; that no condition is added is `EngineStep.cond_sub`. -/
theorem everyEngineStepMakesProgress : Obligations.EveryEngineStepMakesProgress := by
  intro s t henabled hcond h
  obtain ⟨i, hstep⟩ := engineStep_of_engineTurn hcond henabled h
  rcases hstep.progress hcond with hfsm | hpend | hq
  · exact .inl hfsm
  · exact .inr (.inl ⟨fun he => hpend (State.pend_eq_of_cond_eq he), hstep.cond_sub⟩)
  · exact .inr (.inr hq)

/-- An engine step performs one of the fourteen branches, which leaves the configuration, `halted`, `enabled` and the
schedule as they are. -/
theorem EngineStep.keeps {s t : State} {i : Instr} (h : EngineStep s i t) (hexec : exec i s = .next t) :
    t.config = s.config ∧ t.halted = s.halted ∧ t.enabled = s.enabled ∧ t.schedule = s.schedule := by
  have htarget : branchTarget i ≠ none := by simp [h.branchTarget_eq]
  obtain ⟨hconfig, -, hschedule, -, -, hhalted⟩ := exec_keeps hexec
  obtain ⟨henabled, -, -⟩ := exec_frontEnd hexec (fun a ha => htarget (by rw [ha]; rfl))
    (fun hi => htarget (by rw [hi]; rfl))
  exact ⟨hconfig, hhalted, henabled, hschedule⟩

/-! ## How long the engine can run (R146, R295) -/

/-- A bound on the engine steps that are left, from the queue's length, the latched conditions as 0 or 1, the state and
whether a start-detected is pending: each byte and each condition takes a step of its own, and a start-detected leads
through further states. -/
def stepBound (q rr sp ab : Nat) : Fsm → Bool → Nat
  | .idle, false => q + rr + sp + ab
  | .read, false => q + rr + sp + ab
  | .write, false => q + rr + max sp rr + ab
  | .start, false => if q = 0 then rr + sp + ab + 1 else q + rr + max sp rr + ab + 1
  | .idle, true => if q = 0 then rr + sp + ab + 2 else q + rr + max sp rr + ab + 2
  | .read, true => q + rr + sp + ab + 2
  | .write, true => q + rr + ab + 3
  | .start, true => q + rr + ab + 4

/-- The bound for a state. -/
def State.stepsLeft (s : State) : Nat :=
  stepBound s.rxq.length s.pend.rr.toNat s.pend.sp.toNat s.pend.ab.toNat s.fsm s.pend.sd

theorem stepBound_le {rr sp ab : Nat} (hrr : rr ≤ 1) (hsp : sp ≤ 1) (hab : ab ≤ 1) (q : Nat) (f : Fsm) (sd : Bool) :
    stepBound q rr sp ab f sd ≤ q + 6 := by
  by_cases hq : q = 0 <;> cases f <;> cases sd <;> simp only [stepBound, hq, if_true, if_false] <;> omega

theorem State.stepsLeft_le (s : State) : s.stepsLeft ≤ s.rxq.length + 6 :=
  stepBound_le s.pend.rr.toNat_le s.pend.sp.toNat_le s.pend.ab.toNat_le _ _ _

/-- Something pending takes a step, beside the queue's other bytes. -/
theorem lt_stepBound {q rr sp ab : Nat} {sd : Bool} (h : sd = true ∨ 0 < q + rr + sp + ab) (f : Fsm) :
    q - 1 < stepBound q rr sp ab f sd := by
  by_cases hq : q = 0 <;> cases f <;> cases sd <;>
    simp only [stepBound, hq, if_true, if_false, Bool.false_eq_true, false_or] at h ⊢ <;> omega

/-- `COND` is not 0: a start-detected, a queued byte or another condition. -/
theorem State.pending_of_cond {s : State} (hcond : s.cond ≠ 0#5) :
    s.pend.sd = true ∨ 0 < s.rxq.length + s.pend.rr.toNat + s.pend.sp.toNat + s.pend.ab.toNat := by
  by_contra hnone
  rw [not_or, Nat.not_lt, Nat.le_zero] at hnone
  rcases hp : s.pend with ⟨sd, rr, sp, ab⟩
  exact hcond (s.cond_eq_zero_iff.2 (by simp_all))

theorem EngineStep.stepsLeft_lt {s t : State} {i : Instr} (h : EngineStep s i t) (hcond : s.cond ≠ 0#5) :
    t.stepsLeft < s.stepsLeft := by
  have hsp := s.pend.sp.toNat_le
  cases h with
  | recover cause =>
    have hrecover : (s.recover cause).stepsLeft = s.rxq.length - 1 := by
      rw [State.recover_eq, ← List.length_tail]
      rfl
    rw [hrecover]
    exact lt_stepBound (State.pending_of_cond hcond) s.fsm
  | idleStart row =>
    obtain ⟨hf, hsd⟩ := row
    simp only [State.stepsLeft, State.clear, State.setFsm, Pending.drop, hf, hsd, stepBound]
    split <;> omega
  | idleAbort row =>
    obtain ⟨hf, hab, hsd⟩ := row
    simp [State.stepsLeft, Pending.drop, hf, hsd, hab, stepBound]
  | startWrite row =>
    obtain ⟨hf, hq⟩ := row
    cases hsd : s.pend.sd <;> simp [State.stepsLeft, hf, hq, hsd, stepBound]
  | startRead row =>
    obtain ⟨hf, hrr, hq⟩ := row
    cases hsd : s.pend.sd <;> simp [State.stepsLeft, hf, hq, hsd, hrr, stepBound]
    omega
  | writeRx row b =>
    obtain ⟨hf, hq⟩ := row
    have hpos := List.length_pos_iff.2 hq
    rw [State.receive_eq]
    cases hsd : s.pend.sd <;> simp [State.stepsLeft, hf, hsd, stepBound] <;> omega
  | writeStop row =>
    obtain ⟨hf, hsp, hq⟩ := row
    cases hsd : s.pend.sd <;>
      simp [State.stepsLeft, State.finish, Pending.drop, hf, hsp, hq, hsd, stepBound]
  | writeRestart row =>
    obtain ⟨hf, hsd, hq, hsp⟩ := row
    simp [State.stepsLeft, Pending.drop, hf, hsp, hq, hsd, stepBound]
  | writeRdreq row =>
    obtain ⟨hf, hrr, hsd, hq, hsp⟩ := row
    simp [State.stepsLeft, hf, hsp, hq, hsd, hrr, stepBound]
  | readReq row =>
    obtain ⟨hf, hrr⟩ := row
    rw [State.readReq_eq]
    cases hsd : s.pend.sd <;> simp [State.stepsLeft, hf, hsd, hrr, stepBound]
  | readStop row =>
    obtain ⟨hf, hsp, hrr⟩ := row
    cases hsd : s.pend.sd <;>
      simp [State.stepsLeft, State.finish, Pending.drop, hf, hsp, hrr, hsd, stepBound]
    split <;> omega

/-! ## Runs of the engine alone -/

theorem run_succ {s t : State} (h : step s = .next t) (n : Nat) :
    Sys2Proof.core.run (n + 1) s = Sys2Proof.core.run n t := by
  have hcore : Sys2Proof.core.step s = .next t := h
  simp only [Host.Core.run, hcore]

/-- R295: with the schedule run out the engine steps, and has the next turn again. -/
theorem State.engineAlone.step {s : State} (h : s.engineAlone) (hcond : s.cond ≠ 0#5) :
    ∃ i t, step s = .next t ∧ EngineStep s i t ∧ t.engineAlone := by
  obtain ⟨hrun, henabled, hschedule⟩ := h
  obtain ⟨i, hdec⟩ := decodeBranch_total s.config.condPolicy s.selector
  obtain ⟨t, hexec, hstep⟩ := engineStep_of_selected hdec
  obtain ⟨-, hhalted, hen, hsched⟩ := hstep.keeps hexec
  refine ⟨i, t, ?_, hstep, hhalted.trans hrun, hen.trans henabled, hsched.trans hschedule⟩
  rw [step_of_schedule_nil hrun hschedule, engineTurn_eq_exec henabled hcond hdec, hexec]

/-- R146: the engine comes to rest within its bound. -/
theorem State.engineAlone.rests (n : Nat) {s : State} (h : s.engineAlone) (hn : s.stepsLeft ≤ n) :
    ∃ k, k ≤ n ∧ ∃ t, Sys2Proof.core.run k s = .next t ∧ t.cond = 0#5 := by
  induction n generalizing s with
  | zero =>
    refine ⟨0, Nat.le_refl 0, s, rfl, ?_⟩
    by_contra hcond
    obtain ⟨i, t, -, hstep, -⟩ := h.step hcond
    exact absurd (hstep.stepsLeft_lt hcond) (by omega)
  | succ n ih =>
    by_cases hcond : s.cond = 0#5
    · exact ⟨0, Nat.zero_le _, s, rfl, hcond⟩
    · obtain ⟨i, t, hnext, hstep, halone⟩ := h.step hcond
      have hlt := hstep.stepsLeft_lt hcond
      obtain ⟨k, hk, u, hrun, hrest⟩ := ih halone (by omega)
      exact ⟨k + 1, by omega, u, (run_succ hnext k).trans hrun, hrest⟩

/-- Settles O40: every engine step lowers `State.stepsLeft`, which is at most the queue's length and 6. -/
theorem engineRunEndsWithinSixMoreThanTheQueue : Obligations.EngineRunEndsWithinSixMoreThanTheQueue :=
  fun s h => h.rests _ s.stepsLeft_le

/-- START with one byte queued and every latched condition pending (log 25). -/
def sevenStepState : State :=
  { State.reset with enabled := true, fsm := .start, pend := ⟨true, true, true, true⟩, rxq := [0x00#8] }

/-- Whether a condition is still pending after a number of steps. -/
def State.busyAfter (s : State) (k : Nat) : Bool :=
  match Sys2Proof.core.run k s with
  | .next t => t.cond != 0#5
  | .fault _ => true
  | .refused _ => true

theorem State.busyAfter_of_run {s t : State} {k : Nat} (h : Sys2Proof.core.run k s = .next t) :
    s.busyAfter k = (t.cond != 0#5) := by
  rw [State.busyAfter, h]

/-- Seven steps: start-write, the byte, stop, start, start-read, the request, and the recovery from the abort. -/
theorem sevenStepState_busy : ∀ k ≤ 6, sevenStepState.busyAfter k = true := by decide

/-- Refutes O41: from `sevenStepState` the engine takes seven steps, and the bound allows six. -/
theorem not_engineRunEndsWithinFiveMoreThanTheQueue : ¬ Obligations.EngineRunEndsWithinFiveMoreThanTheQueue := by
  intro h
  obtain ⟨k, hk, t, hrun, hrest⟩ := h sevenStepState ⟨rfl, rfl, rfl⟩
  have hbusy := sevenStepState_busy k hk
  rw [State.busyAfter_of_run hrun, hrest] at hbusy
  cases hbusy

end Sys2Proof.Machine

/-! # Proofs: transactions and the schedule -/

namespace Sys2Proof.Machine

/-! ## The engine's step as a function of the block and the front-end -/

/-- The engine step that `priority` selects (R105, step 2), and no change where nothing is pending. -/
def State.serve (s : State) : State :=
  if s.cond = 0#5 then s
  else
    match exec (s.condBits.branch s.fsm) s with
    | .next t => t
    | .fault _ => s
    | .refused _ => s

theorem State.serve_of_rest {s : State} (h : s.cond = 0#5) : s.serve = s := if_pos h

theorem State.serve_of_exec {s t : State} (hcond : s.cond ≠ 0#5) (hexec : exec (s.condBits.branch s.fsm) s = .next t) :
    s.serve = t := by
  rw [State.serve, if_neg hcond, hexec]

/-- R131 to R145: with a condition pending, it is an engine step. -/
theorem State.serve_engineStep {s : State} (hcond : s.cond ≠ 0#5) :
    exec (s.condBits.branch s.fsm) s = .next s.serve ∧ EngineStep s (s.condBits.branch s.fsm) s.serve := by
  obtain ⟨t, hexec, hstep⟩ := EngineStep.of_firstMatch ((s.branch_eq_iff _).1 rfl)
  rw [State.serve_of_exec hcond hexec]
  exact ⟨hexec, hstep⟩

/-- At most one condition is pending. -/
def State.calm (s : State) : Prop := s.cond &&& (s.cond - 1#5) = 0#5

/-- R148: with a single condition pending, step 1 of R105 selects what step 2 selects. -/
theorem CondBits.branch_of_unhandled (c : CondBits) (f : Fsm) (hcalm : c.word &&& (c.word - 1#5) = 0#5)
    (h : c.unhandled f = true) : c.branch f = recoveryOf f := by
  revert hcalm h
  rcases c with ⟨ab, sp, rr, rx, sd⟩
  cases f <;> cases ab <;> cases sp <;> cases rr <;> cases rx <;> cases sd <;> decide

/-- R105, R148: under `priority`, and under `strict` with a single condition pending, an enabled engine serves. -/
theorem engineTurn_eq_serve {s : State} (henabled : s.enabled = true)
    (hcalm : s.config.condPolicy = .strict → s.calm) : engineTurn s = .next s.serve := by
  by_cases hcond : s.cond = 0#5
  · rw [State.serve_of_rest hcond, engineTurn_of_no_step (.inr hcond)]
  · obtain ⟨hexec, -⟩ := State.serve_engineStep hcond
    rw [← hexec]
    refine engineTurn_eq_exec henabled hcond ?_
    rw [decodeBranch_state]
    split
    case isTrue h => rw [CondBits.branch_of_unhandled s.condBits s.fsm (hcalm h.1) h.2]
    case isFalse => rfl

/-! ## The step under another policy and another schedule -/

/-- The state under a policy and with a schedule of one's own. -/
def State.under (s : State) (p : CondPolicy) (ts : List Turn) : State :=
  { s with config := { s.config with condPolicy := p }, schedule := ts }

theorem State.under_self (s : State) (ts : List Turn) : s.under s.config.condPolicy ts = { s with schedule := ts } := rfl

/-- What a byte's handling does not look at: the policy, the schedule and the front-end, each replaced. -/
def State.around (s : State) (p : CondPolicy) (ts : List Turn) (pend : Pending) (rxq : List Byte) : State :=
  { s.under p ts with pend := pend, rxq := rxq }

theorem State.busWrite_around (s : State) (p : CondPolicy) (ts : List Turn) (pend : Pending) (rxq : List Byte)
    (a : Addr) (v : Byte) : (s.around p ts pend rxq).busWrite a v = (s.busWrite a v).around p ts pend rxq := by
  have hro : (s.around p ts pend rxq).ro a = s.ro a := rfl
  unfold State.busWrite
  rw [hro]
  split <;> rfl

/-- R137, R161, R162: RECEIVE looks at the block alone, and touches nothing else. -/
theorem State.receive_around (s : State) (p : CondPolicy) (ts : List Turn) (pend : Pending) (rxq : List Byte)
    (b : Byte) : (s.around p ts pend rxq).receive b = (s.receive b).around p ts pend rxq := by
  cases hwip : s.writeInProgress with
  | false =>
    rw [State.receive_of_not_wip hwip, State.receive_of_not_wip (s := s.around p ts pend rxq) hwip]
    rfl
  | true =>
    have hcursor : (s.around p ts pend rxq).cursor = s.cursor := rfl
    rw [State.receive_of_wip hwip, State.receive_of_wip (s := s.around p ts pend rxq) hwip, State.receiveData, hcursor,
      State.busWrite_around]
    rfl

theorem State.receive_under (s : State) (p : CondPolicy) (ts : List Turn) (b : Byte) :
    (s.under p ts).receive b = (s.receive b).under p ts := by
  refine (s.receive_around p ts s.pend s.rxq b).trans ?_
  rw [State.receive_eq]
  rfl

theorem State.receive_envRaise (s : State) (c : Latched) (b : Byte) :
    (s.envRaise c).receive b = (s.receive b).envRaise c := by
  refine (s.receive_around s.config.condPolicy s.schedule (s.pend.add c) s.rxq b).trans ?_
  rw [State.receive_eq]
  rfl

theorem State.receive_envPush (s : State) (x b : Byte) :
    (s.envPush x).receive b = (s.receive b).envPush x := by
  refine (s.receive_around s.config.condPolicy s.schedule s.pend (s.rxq ++ [x]) b).trans ?_
  rw [State.receive_eq]
  rfl

theorem State.request_under (s : State) (p : CondPolicy) (ts : List Turn) :
    (s.under p ts).request = s.request.under p ts := by
  have hack : ((s.under p ts).cursor = (s.under p ts).config.map.interrupt2) ↔
      s.cursor = s.config.map.interrupt2 := Iff.rfl
  unfold State.request
  simp only [hack]
  split <;> rfl

/-- R9, R11: a branch looks neither at the policy nor at the schedule. -/
theorem exec_under {s t : State} {i : Instr} (p : CondPolicy) (ts : List Turn) (hi : branchTarget i ≠ none)
    (h : exec i s = .next t) : exec i (s.under p ts) = .next (t.under p ts) := by
  cases i
  case tWriteRx =>
    obtain ⟨b, rest, hq, rfl⟩ := tWriteRx_next h
    have hrun : exec .tWriteRx (s.under p ts) = .next ((s.under p ts).rxDrop.receive b) := by
      simp [exec, execTWriteRx, State.under, hq]
    rw [hrun]
    exact congrArg _ (s.rxDrop.receive_under p ts b)
  case tReadReq => cases h; simp only [exec, execTReadReq, State.request_under]; rfl
  case tIdleRecover | tStartFault | tWriteRecover | tReadRecover =>
    cases h
    simp only [exec, execTIdleRecover, execTStartFault, execTWriteRecover, execTReadRecover, State.recover_eq]
    rfl
  case tIdleStart | tIdleAbort | tStartWrite | tStartRead | tWriteStop | tWriteRestart | tWriteRdreq | tReadStop =>
    cases h
    rfl
  all_goals exact absurd rfl hi

theorem State.serve_under (s : State) (p : CondPolicy) (ts : List Turn) :
    (s.under p ts).serve = s.serve.under p ts := by
  by_cases hcond : s.cond = 0#5
  · rw [State.serve_of_rest hcond, State.serve_of_rest (s := s.under p ts) hcond]
  · obtain ⟨hexec, hstep⟩ := State.serve_engineStep hcond
    have htarget : branchTarget (s.condBits.branch s.fsm) ≠ none := by simp [hstep.branchTarget_eq]
    exact State.serve_of_exec (s := s.under p ts) hcond (exec_under p ts htarget hexec)

/-! ## Turns of the environment and of the engine -/

/-- What a turn of the front-end or of the engine does. -/
def State.act (s : State) : Turn → State
  | .raise c => s.envRaise c
  | .push b => s.envPush b
  | .engine => s.serve
  | .localOp _ => s
  | .pass _ => s
  | .poll => s

theorem State.act_under (s : State) (p : CondPolicy) (ts : List Turn) (m : Turn) :
    (s.under p ts).act m = (s.act m).under p ts := by
  cases m with
  | engine => exact s.serve_under p ts
  | raise | push | localOp | pass | poll => rfl

/-- R106 (a), R148: a move may come where no read-request is pending and, under `strict`, nothing is. -/
def State.readyForMove (s : State) : Prop := s.pend.rr = false ∧ (s.config.condPolicy = .strict → s.cond = 0#5)

/-- The turns of a conforming master and of the engine between its moves. -/
def State.admits (s : State) : Turn → Prop
  | .raise _ => s.readyForMove
  | .push _ => s.readyForMove ∧ s.rxHasRoom = true
  | .engine => True
  | .localOp _ => False
  | .pass _ => False
  | .poll => False

/-- Each turn of a schedule is admitted where it comes. -/
def Orderly : State → List Turn → Prop
  | _, [] => True
  | s, m :: ts => s.admits m ∧ Orderly (s.act m) ts

/-- The state is running, enabled, and under `strict` calm: its engine turns serve. -/
structure State.Serving (s : State) : Prop where
  running : s.halted = false
  enabled : s.enabled = true
  calm : s.config.condPolicy = .strict → s.calm

theorem State.calm_of_rest {s : State} (h : s.cond = 0#5) : s.calm := by
  rw [State.calm, h]
  decide

/-- Dropping conditions keeps the calm. -/
theorem and_pred_eq_zero_of_sub : ∀ x y : BitVec 5, x &&& ~~~y = 0#5 → y &&& (y - 1#5) = 0#5 →
    x &&& (x - 1#5) = 0#5 := by decide

/-- From rest one move of the environment leaves a single condition. -/
theorem State.calm_act_of_rest {s : State} (h : s.cond = 0#5) (m : Turn) : (s.act m).calm := by
  obtain ⟨hpend, hq⟩ := s.cond_eq_zero_iff.1 h
  cases m with
  | raise c => cases c <;> simp [State.calm, State.cond, State.rx, State.act, Pending.add, hpend, hq]
  | push b => simp [State.calm, State.cond, State.rx, State.act, hpend, hq]
  | engine => rw [State.act, State.serve_of_rest h]; exact State.calm_of_rest h
  | localOp | pass | poll => exact State.calm_of_rest h

theorem State.serve_keeps (s : State) :
    s.serve.config = s.config ∧ s.serve.halted = s.halted ∧ s.serve.enabled = s.enabled ∧
      s.serve.cond &&& ~~~s.cond = 0#5 := by
  by_cases hcond : s.cond = 0#5
  · rw [State.serve_of_rest hcond, hcond]
    exact ⟨rfl, rfl, rfl, rfl⟩
  · obtain ⟨hexec, hstep⟩ := State.serve_engineStep hcond
    obtain ⟨hconfig, hhalted, henabled, -⟩ := hstep.keeps hexec
    exact ⟨hconfig, hhalted, henabled, hstep.cond_sub⟩

theorem State.act_config (s : State) (m : Turn) : (s.act m).config = s.config := by
  cases m with
  | engine => exact s.serve_keeps.1
  | raise | push | localOp | pass | poll => rfl

theorem State.Serving.serve {s : State} (h : s.Serving) : s.serve.Serving := by
  obtain ⟨hconfig, hhalted, henabled, hsub⟩ := s.serve_keeps
  exact ⟨hhalted.trans h.running, henabled.trans h.enabled,
    fun hp => and_pred_eq_zero_of_sub _ _ hsub (h.calm (hconfig ▸ hp))⟩

theorem State.Serving.act {s : State} (h : s.Serving) {m : Turn} (hm : s.admits m) : (s.act m).Serving := by
  cases m with
  | engine => exact h.serve
  | raise c => exact ⟨h.running, h.enabled, fun hp => State.calm_act_of_rest (hm.2 hp) (.raise c)⟩
  | push b => exact ⟨h.running, h.enabled, fun hp => State.calm_act_of_rest (hm.1.2 hp) (.push b)⟩
  | localOp | pass | poll => exact hm.elim

/-- An engine turn on a schedule serves. -/
theorem State.Serving.engineTurn_schedule {s : State} (h : s.Serving) (ts : List Turn) :
    engineTurn { s with schedule := ts } = .next { s.serve with schedule := ts } := by
  obtain ⟨hconfig, -⟩ := s.serve_keeps
  rw [engineTurn_eq_serve (s := { s with schedule := ts }) h.enabled h.calm, ← State.under_self, State.serve_under,
    ← hconfig, State.under_self]

/-- An admitted turn is taken. -/
theorem State.Serving.step_cons {s : State} (h : s.Serving) {m : Turn} (hm : s.admits m) (ts : List Turn) :
    step { s with schedule := m :: ts } = .next { s.act m with schedule := ts } := by
  refine (step_of_not_halted (s := { s with schedule := m :: ts }) h.running).trans ?_
  cases m with
  | engine => exact h.engineTurn_schedule ts
  | raise c => rfl
  | push b => exact if_pos hm.2
  | localOp | pass | poll => exact hm.elim

/-- R295: after its schedule a state serves. -/
theorem State.Serving.step_nil {s : State} (h : s.Serving) :
    step { s with schedule := [] } = .next { s.serve with schedule := [] } := by
  rw [step_of_schedule_nil (s := { s with schedule := [] }) h.running rfl]
  exact h.engineTurn_schedule []

/-- The run of an orderly schedule: its turns in their order, and the engine's after them. -/
theorem State.Serving.run_orderly {s : State} (h : s.Serving) {ts : List Turn} (hts : Orderly s ts) (n : Nat) :
    Sys2Proof.core.run n { s with schedule := ts } =
      .next { State.serve^[n - ts.length] ((ts.take n).foldl State.act s) with schedule := ts.drop n } := by
  induction n generalizing s ts with
  | zero => simp [Host.Core.run]
  | succ n ih =>
    cases ts with
    | nil =>
      rw [run_succ h.step_nil, ih (ts := []) h.serve trivial]
      simp
    | cons m ts =>
      obtain ⟨hm, hts⟩ := hts
      rw [run_succ (h.step_cons hm ts), ih (h.act hm) hts]
      simp

end Sys2Proof.Machine

/-! # Proofs: a late engine catches up -/

namespace Sys2Proof.Machine

/-! ## The state the engine comes to rest in -/

/-- Left alone, the engine takes the first state to the second, where nothing is pending. -/
def State.Settles (s p : State) : Prop := (∃ k, State.serve^[k] s = p) ∧ p.cond = 0#5

namespace State.Settles

variable {s p : State}

theorem rest (h : s.Settles p) : p.cond = 0#5 := h.2

theorem of_rest (h : p.cond = 0#5) : p.Settles p := ⟨⟨0, rfl⟩, h⟩

theorem of_serve (h : s.serve.Settles p) : s.Settles p := by
  obtain ⟨⟨k, hk⟩, hrest⟩ := h
  exact ⟨⟨k + 1, hk⟩, hrest⟩

/-- A state at rest settles in itself alone. -/
theorem eq_of_rest (h : s.Settles p) (hs : s.cond = 0#5) : s = p := by
  obtain ⟨⟨k, rfl⟩, -⟩ := h
  exact (Function.iterate_fixed (State.serve_of_rest hs) k).symm

theorem serve (h : s.Settles p) : s.serve.Settles p := by
  obtain ⟨⟨k, hk⟩, hrest⟩ := h
  cases k with
  | zero =>
    obtain rfl : s = p := hk
    rw [State.serve_of_rest hrest]
    exact of_rest hrest
  | succ k => exact ⟨⟨k, hk⟩, hrest⟩

theorem iterate (h : s.Settles p) (k : Nat) : (State.serve^[k] s).Settles p := by
  induction k generalizing s with
  | zero => exact h
  | succ k ih => exact ih h.serve

/-- What every engine step keeps, the state it settles in has. -/
theorem keeps {I : State → Prop} (h : s.Settles p) (hI : ∀ s, I s → I s.serve) (hs : I s) : I p := by
  obtain ⟨⟨k, rfl⟩, -⟩ := h
  exact Function.Iterate.rec I hs hI k

/-- A move that commutes with each engine step on the way may as well come at rest. -/
theorem act {I : State → Prop} {q : State} {m : Turn} (h : s.Settles p) (hI : ∀ s, I s → I s.serve) (hs : I s)
    (hcomm : ∀ s, I s → s.cond ≠ 0#5 → (s.act m).serve = s.serve.act m) (hq : (p.act m).Settles q) :
    (s.act m).Settles q := by
  obtain ⟨⟨k, hk⟩, hrest⟩ := h
  induction k generalizing s with
  | zero => cases hk; exact hq
  | succ k ih =>
    by_cases hcond : s.cond = 0#5
    · rw [eq_of_rest ⟨⟨k + 1, hk⟩, hrest⟩ hcond]
      exact hq
    · refine of_serve ?_
      rw [hcomm s hs hcond]
      exact ih (hI s hs) hk

end State.Settles

/-! ## The branches of a transaction -/

theorem State.cond_ne_zero_of_has {s : State} {c : Latched} (h : s.pend.has c = true) : s.cond ≠ 0#5 := by
  intro hcond
  obtain ⟨hpend, -⟩ := s.cond_eq_zero_iff.1 hcond
  rw [hpend] at h
  cases c <;> cases h

theorem State.cond_ne_zero_of_rxq {s : State} (h : s.rxq ≠ []) : s.cond ≠ 0#5 := fun hcond =>
  h (s.cond_eq_zero_iff.1 hcond).2

/-- The step of a row that is the first to match. -/
theorem State.serve_of_firstMatch {s t : State} {i : Instr} (row : s.firstMatch i) (hcond : s.cond ≠ 0#5)
    (hexec : exec i s = .next t) : s.serve = t := by
  rw [← (s.branch_eq_iff i).2 row] at hexec
  exact State.serve_of_exec hcond hexec

namespace State

variable {s : State}

theorem serve_idleStart (hf : s.fsm = .idle) (hsd : s.pend.sd = true) : s.serve = (s.clear .sd).setFsm .start :=
  serve_of_firstMatch (i := .tIdleStart) ⟨hf, hsd⟩ (cond_ne_zero_of_has (c := .sd) hsd) rfl

theorem serve_startWrite (hf : s.fsm = .start) (hq : s.rxq ≠ []) : s.serve = s.setFsm .write :=
  serve_of_firstMatch (i := .tStartWrite) ⟨hf, hq⟩ (cond_ne_zero_of_rxq hq) rfl

theorem serve_startRead (hf : s.fsm = .start) (hrr : s.pend.rr = true) (hq : s.rxq = []) : s.serve = s.setFsm .read :=
  serve_of_firstMatch (i := .tStartRead) ⟨hf, hrr, hq⟩ (cond_ne_zero_of_has (c := .rr) hrr) rfl

theorem serve_startFault (hf : s.fsm = .start) (hsp : s.pend.sp = true) (hrr : s.pend.rr = false) (hq : s.rxq = []) :
    s.serve = s.recover .startFault :=
  serve_of_firstMatch (i := .tStartFault) ⟨hf, hq, hrr⟩ (cond_ne_zero_of_has (c := .sp) hsp) rfl

theorem serve_writeRx {b : Byte} {rest : List Byte} (hf : s.fsm = .write) (hq : s.rxq = b :: rest) :
    s.serve = s.rxDrop.receive b :=
  have hne : s.rxq ≠ [] := by rw [hq]; exact List.cons_ne_nil b rest
  serve_of_firstMatch (i := .tWriteRx) ⟨hf, hne⟩ (cond_ne_zero_of_rxq hne) (by simp [exec, execTWriteRx, hq])

theorem serve_writeStop (hf : s.fsm = .write) (hsp : s.pend.sp = true) (hq : s.rxq = []) :
    s.serve = (s.clear .sp).finish.setFsm .idle :=
  serve_of_firstMatch (i := .tWriteStop) ⟨hf, hsp, hq⟩ (cond_ne_zero_of_has (c := .sp) hsp) rfl

theorem serve_writeRestart (hf : s.fsm = .write) (hsd : s.pend.sd = true) (hq : s.rxq = []) (hsp : s.pend.sp = false) :
    s.serve = (s.clear .sd).setFsm .read :=
  serve_of_firstMatch (i := .tWriteRestart) ⟨hf, hsd, hq, hsp⟩ (cond_ne_zero_of_has (c := .sd) hsd) rfl

theorem serve_writeRdreq (hf : s.fsm = .write) (hrr : s.pend.rr = true) (hsd : s.pend.sd = false) (hq : s.rxq = [])
    (hsp : s.pend.sp = false) : s.serve = s.setFsm .read :=
  serve_of_firstMatch (i := .tWriteRdreq) ⟨hf, hrr, hsd, hq, hsp⟩ (cond_ne_zero_of_has (c := .rr) hrr) rfl

theorem serve_readReq (hf : s.fsm = .read) (hrr : s.pend.rr = true) : s.serve = s.request.txPush s.requestByte :=
  serve_of_firstMatch (i := .tReadReq) ⟨hf, hrr⟩ (cond_ne_zero_of_has (c := .rr) hrr) rfl

theorem serve_readStop (hf : s.fsm = .read) (hsp : s.pend.sp = true) (hrr : s.pend.rr = false) :
    s.serve = (s.clear .sp).finish.setFsm .idle :=
  serve_of_firstMatch (i := .tReadStop) ⟨hf, hsp, hrr⟩ (cond_ne_zero_of_has (c := .sp) hsp) rfl

end State

/-! ## A transaction before its stop -/

/-- Between the start and the stop of a transaction: no stop, no abort; a start-detected that `IDLE` has not taken yet, or
in START only before the address byte, and in READ nothing but a read-request (R106). -/
structure State.Underway (s : State) : Prop where
  noStop : s.pend.sp = false
  noAbort : s.pend.ab = false
  idle : s.fsm = .idle → s.pend.sd = true
  start : s.fsm = .start → s.pend.sd = true → s.rxq ≠ []
  read : s.fsm = .read → s.pend.sd = false ∧ s.rxq = []

/-- The engine's step there: start, start-write, start-read, a byte, restart, read-request in WRITE, read-request. -/
theorem State.Underway.serve_cases {s : State} (h : s.Underway) (hcond : s.cond ≠ 0#5) :
    (s.fsm = .idle ∧ s.pend.sd = true ∧ s.serve = (s.clear .sd).setFsm .start) ∨
    (s.fsm = .start ∧ s.rxq ≠ [] ∧ s.serve = s.setFsm .write) ∨
    (s.fsm = .start ∧ s.rxq = [] ∧ s.pend.sd = false ∧ s.pend.rr = true ∧ s.serve = s.setFsm .read) ∨
    (s.fsm = .write ∧ ∃ b rest, s.rxq = b :: rest ∧ s.serve = s.rxDrop.receive b) ∨
    (s.fsm = .write ∧ s.rxq = [] ∧ s.pend.sd = true ∧ s.serve = (s.clear .sd).setFsm .read) ∨
    (s.fsm = .write ∧ s.rxq = [] ∧ s.pend.sd = false ∧ s.pend.rr = true ∧ s.serve = s.setFsm .read) ∨
    (s.fsm = .read ∧ s.pend.sd = false ∧ s.rxq = [] ∧ s.pend.rr = true ∧
      s.serve = s.request.txPush s.requestByte) := by
  have hrr : s.pend.sd = false → s.rxq = [] → s.pend.rr = true := fun hsd hq => by
    by_contra hrr
    rcases hp : s.pend with ⟨sd, rr, sp, ab⟩
    have hsp := h.noStop
    have hab := h.noAbort
    exact hcond (s.cond_eq_zero_iff.2 (by simp_all))
  cases hf : s.fsm with
  | idle =>
    have hsd := h.idle hf
    exact .inl ⟨rfl, hsd, State.serve_idleStart hf hsd⟩
  | start =>
    by_cases hq : s.rxq = []
    · have hsd : s.pend.sd = false := Bool.eq_false_iff.2 fun hsd => h.start hf hsd hq
      exact .inr (.inr (.inl ⟨rfl, hq, hsd, hrr hsd hq, State.serve_startRead hf (hrr hsd hq) hq⟩))
    · exact .inr (.inl ⟨rfl, hq, State.serve_startWrite hf hq⟩)
  | write =>
    cases hq : s.rxq with
    | cons b rest => exact .inr (.inr (.inr (.inl ⟨rfl, b, rest, rfl, State.serve_writeRx hf hq⟩)))
    | nil =>
      cases hsd : s.pend.sd with
      | true => exact .inr (.inr (.inr (.inr (.inl ⟨rfl, rfl, rfl, State.serve_writeRestart hf hsd hq h.noStop⟩))))
      | false =>
        exact .inr (.inr (.inr (.inr (.inr (.inl
          ⟨rfl, rfl, rfl, hrr hsd hq, State.serve_writeRdreq hf (hrr hsd hq) hsd hq h.noStop⟩)))))
  | read =>
    obtain ⟨hsd, hq⟩ := h.read hf
    exact .inr (.inr (.inr (.inr (.inr (.inr ⟨rfl, hsd, hq, hrr hsd hq, State.serve_readReq hf (hrr hsd hq)⟩)))))

theorem State.Underway.serve {s : State} (h : s.Underway) : s.serve.Underway := by
  by_cases hcond : s.cond = 0#5
  · rwa [State.serve_of_rest hcond]
  have hsp := h.noStop
  have hab := h.noAbort
  rcases h.serve_cases hcond with ⟨hf, hsd, he⟩ | ⟨hf, hq, he⟩ | ⟨hf, hq, hsd, hrr, he⟩ | ⟨hf, b, rest, hq, he⟩ |
    ⟨hf, hq, hsd, he⟩ | ⟨hf, hq, hsd, hrr, he⟩ | ⟨hf, hsd, hq, hrr, he⟩ <;> rw [he]
  · exact ⟨hsp, hab, nofun, nofun, nofun⟩
  · exact ⟨hsp, hab, nofun, nofun, nofun⟩
  · exact ⟨hsp, hab, nofun, nofun, fun _ => ⟨hsd, hq⟩⟩
  · rw [State.receive_eq]
    constructor <;> simp_all
  · exact ⟨hsp, hab, nofun, nofun, fun _ => ⟨rfl, hq⟩⟩
  · exact ⟨hsp, hab, nofun, nofun, fun _ => ⟨hsd, hq⟩⟩
  · rw [State.readReq_eq]
    constructor <;> simp_all

/-- A move that no engine step on the way preempts or awaits commutes with it: any move but a start-detected in `IDLE`,
where it is absorbed, and in WRITE with no byte left only a read-request, which waits for the restart (R105). -/
theorem State.Underway.act_serve {s : State} {m : Turn} (h : s.Underway) (hrr : s.pend.rr = false)
    (hcond : s.cond ≠ 0#5) (hm : m.isMove = true) (hstart : m = .raise .sd → s.fsm ≠ .idle)
    (hlate : s.fsm = .write → s.rxq = [] → m = .raise .rr) : (s.act m).serve = s.serve.act m := by
  rcases h.serve_cases hcond with ⟨hf, hsd, he⟩ | ⟨hf, hq, he⟩ | ⟨-, -, -, hreq, -⟩ | ⟨hf, b, rest, hq, he⟩ |
    ⟨hf, hq, hsd, he⟩ | ⟨-, -, -, hreq, -⟩ | ⟨-, -, -, hreq, -⟩
  case inr.inr.inl | inr.inr.inr.inr.inr.inl | inr.inr.inr.inr.inr.inr => rw [hrr] at hreq; cases hreq
  · -- `IDLE` takes the start-detected first
    rw [he]
    cases m with
    | raise c =>
      have hne : c ≠ .sd := fun hc => hstart (by rw [hc]) hf
      rw [State.serve_idleStart (s := s.act (.raise c)) hf (by cases c <;> simp_all [State.act, Pending.add])]
      cases c with
      | sd => exact absurd rfl hne
      | rr | sp | ab => rfl
    | push c => exact State.serve_idleStart (s := s.act (.push c)) hf hsd
    | engine | localOp | pass | poll => cases hm
  · -- START tests the queue first
    rw [he]
    cases m with
    | raise c => exact State.serve_startWrite (s := s.act (.raise c)) hf hq
    | push c => exact State.serve_startWrite (s := s.act (.push c)) hf (by simp [State.act])
    | engine | localOp | pass | poll => cases hm
  · -- so does WRITE, and it takes the oldest byte
    rw [he]
    cases m with
    | raise c =>
      rw [State.serve_writeRx (s := s.act (.raise c)) hf hq]
      exact s.rxDrop.receive_envRaise c b
    | push x =>
      have hqueue : (s.envPush x).rxq = b :: (rest ++ [x]) := by simp [hq]
      have hdrop : (s.envPush x).rxDrop = s.rxDrop.envPush x := by simp [State.rxDrop, State.envPush, hq]
      rw [State.act, State.serve_writeRx (s := s.envPush x) hf hqueue, hdrop]
      exact s.rxDrop.receive_envPush x b
    | engine | localOp | pass | poll => cases hm
  · -- with no byte left WRITE takes the repeated start before the read-request
    rw [he, hlate hf hq, State.serve_writeRestart (s := s.act (.raise .rr)) hf hsd hq h.noStop]
    rfl

end Sys2Proof.Machine

/-! # Proofs: the phases of a transaction -/

namespace Sys2Proof.Machine

/-! ## A move and the engine's answer, from rest (R113) -/

/-- A move of the prompt schedule with the two engine turns after it (log 33). -/
def State.prompt (s : State) (m : Turn) : State := (s.act m).serve.serve

theorem State.Settles.of_prompt {s : State} {m : Turn} (h : (s.prompt m).cond = 0#5) :
    (s.act m).Settles (s.prompt m) := (State.Settles.of_rest h).of_serve.of_serve

/-- One engine step answers the move. -/
theorem State.prompt_eq_of_rest {s t : State} {m : Turn} (h : (s.act m).serve = t) (ht : t.cond = 0#5) :
    s.prompt m = t := by
  rw [State.prompt, h, State.serve_of_rest ht]

theorem State.clear_envRaise {s : State} {c : Latched} (h : s.pend.has c = false) : (s.envRaise c).clear c = s := by
  have hpend : (s.pend.add c).drop c = s.pend := by
    rcases hp : s.pend with ⟨sd, rr, sp, ab⟩
    cases c <;> simp_all [Pending.has, Pending.add, Pending.drop]
  change ({ s with pend := (s.pend.add c).drop c } : State) = s
  rw [hpend]

/-- Raising a condition that is pending already changes nothing. -/
theorem State.envRaise_of_has {s : State} {c : Latched} (h : s.pend.has c = true) : s.envRaise c = s := by
  have hpend : s.pend.add c = s.pend := by
    rcases hp : s.pend with ⟨sd, rr, sp, ab⟩
    cases c <;> simp_all [Pending.has, Pending.add]
  change ({ s with pend := s.pend.add c } : State) = s
  rw [hpend]

theorem State.has_eq_false_of_rest {s : State} (h : s.cond = 0#5) (c : Latched) : s.pend.has c = false := by
  rw [(s.cond_eq_zero_iff.1 h).1]
  cases c <;> rfl

theorem State.setFsm_of_fsm_eq {s : State} {f : Fsm} (h : s.fsm = f) : s.setFsm f = s := by
  subst h
  rfl

namespace State

variable {p : State}

/-- R131. -/
theorem prompt_start (hf : p.fsm = .idle) (hrest : p.cond = 0#5) : p.prompt (.raise .sd) = p.setFsm .start := by
  refine prompt_eq_of_rest ?_ hrest
  rw [serve_idleStart (s := p.act (.raise .sd)) hf rfl, act, clear_envRaise (has_eq_false_of_rest hrest .sd)]

/-- R139: a repeated start in WRITE. -/
theorem prompt_restart (hf : p.fsm = .write) (hrest : p.cond = 0#5) : p.prompt (.raise .sd) = p.setFsm .read := by
  obtain ⟨-, hq⟩ := p.cond_eq_zero_iff.1 hrest
  refine prompt_eq_of_rest ?_ hrest
  rw [serve_writeRestart (s := p.act (.raise .sd)) hf rfl hq (has_eq_false_of_rest hrest .sp), act,
    clear_envRaise (has_eq_false_of_rest hrest .sd)]

/-- R138, R144: a stop in WRITE or READ. -/
theorem prompt_stop (hf : p.fsm = .write ∨ p.fsm = .read) (hrest : p.cond = 0#5) :
    p.prompt (.raise .sp) = p.finish.setFsm .idle := by
  obtain ⟨-, hq⟩ := p.cond_eq_zero_iff.1 hrest
  have hclear := clear_envRaise (has_eq_false_of_rest hrest .sp)
  refine prompt_eq_of_rest ?_ hrest
  rcases hf with hf | hf
  · rw [serve_writeStop (s := p.act (.raise .sp)) hf rfl hq, act, hclear]
  · rw [serve_readStop (s := p.act (.raise .sp)) hf rfl (has_eq_false_of_rest hrest .rr), act, hclear]

/-- R136: a stop in START, after a probe. -/
theorem prompt_probe (hf : p.fsm = .start) (hrest : p.cond = 0#5) :
    (p.prompt (.raise .sp)).cond = 0#5 ∧ (p.prompt (.raise .sp)).fsm = .idle := by
  obtain ⟨-, hq⟩ := p.cond_eq_zero_iff.1 hrest
  have hserve := serve_startFault (s := p.act (.raise .sp)) hf rfl (has_eq_false_of_rest hrest .rr) hq
  have hidle : ((p.act (.raise .sp)).recover .startFault).cond = 0#5 := by
    rw [recover_eq]
    exact (State.cond_eq_zero_iff _).2 ⟨rfl, congrArg List.tail hq⟩
  rw [prompt_eq_of_rest hserve hidle]
  exact ⟨hidle, by rw [recover_eq]⟩

/-- R134, R137: a byte in START or in WRITE. -/
theorem prompt_push (hf : p.fsm = .start ∨ p.fsm = .write) (hrest : p.cond = 0#5) (b : Byte) :
    (p.prompt (.push b)).cond = 0#5 := by
  obtain ⟨hpend, hq⟩ := p.cond_eq_zero_iff.1 hrest
  have hqueue : (p.envPush b).rxq = [b] := by simp [hq]
  have hreceived : (((p.envPush b).setFsm .write).rxDrop.receive b).cond = 0#5 := by
    rw [receive_eq]
    exact (State.cond_eq_zero_iff _).2 ⟨hpend, by simp [hq]⟩
  rcases hf with hf | hf
  · rw [prompt, act, serve_startWrite (s := p.envPush b) hf (by simp),
      serve_writeRx (s := (p.envPush b).setFsm .write) rfl hqueue]
    exact hreceived
  · rw [setFsm_of_fsm_eq (s := p.envPush b) hf] at hreceived
    rw [prompt_eq_of_rest (m := .push b) (serve_writeRx (s := p.envPush b) hf hqueue) hreceived]
    exact hreceived

/-- R135, R140, R143: a read-request brings START and WRITE to READ, where it is answered. -/
theorem prompt_read (hf : p.fsm ≠ .idle) (hrest : p.cond = 0#5) :
    p.prompt (.raise .rr) = ((p.setFsm .read).envRaise .rr).serve ∧ (p.prompt (.raise .rr)).cond = 0#5 := by
  obtain ⟨hpend, hq⟩ := p.cond_eq_zero_iff.1 hrest
  have hanswer : ((p.setFsm .read).envRaise .rr).serve.cond = 0#5 := by
    rw [serve_readReq (s := (p.setFsm .read).envRaise .rr) rfl rfl, readReq_eq]
    exact (State.cond_eq_zero_iff _).2 ⟨by simp [hpend, Pending.add], hq⟩
  suffices hprompt : p.prompt (.raise .rr) = ((p.setFsm .read).envRaise .rr).serve from ⟨hprompt, hprompt ▸ hanswer⟩
  have hsd := has_eq_false_of_rest hrest .sd
  cases hfsm : p.fsm with
  | idle => exact absurd hfsm hf
  | start => rw [prompt, act, serve_startRead (s := p.envRaise .rr) hfsm rfl hq]; rfl
  | write =>
    rw [prompt, act, serve_writeRdreq (s := p.envRaise .rr) hfsm rfl hsd hq (has_eq_false_of_rest hrest .sp)]
    rfl
  | read =>
    rw [setFsm_of_fsm_eq hfsm] at hanswer ⊢
    exact prompt_eq_of_rest rfl hanswer

end State

/-! ## The phases -/

/-- How far the moves of a transaction have come (R106). -/
inductive Phase
  /-- Before the first start. -/
  | fresh
  /-- After the start, with no byte yet. -/
  | opened
  /-- After the address byte. -/
  | written
  /-- After a repeated start that the front-end reports. -/
  | restarted
  /-- After a read-request. -/
  | reading
  /-- After a stop that no byte and no read-request came before. -/
  | probed
  /-- After the stop of any other transaction. -/
  | finished

/-- The phase after a move, where the move may come. -/
def Phase.after : Phase → Turn → Option Phase
  | .fresh, .raise .sd => some .opened
  | .opened, .push _ => some .written
  | .opened, .raise .rr => some .reading
  | .opened, .raise .sp => some .probed
  | .written, .push _ => some .written
  | .written, .raise .sd => some .restarted
  | .written, .raise .rr => some .reading
  | .written, .raise .sp => some .finished
  | .restarted, .raise .rr => some .reading
  | .reading, .raise .rr => some .reading
  | .reading, .raise .sp => some .finished
  | _, _ => none

/-- The phase after several moves. -/
def Phase.through (ph : Phase) (ms : List Turn) : Option Phase := ms.foldlM Phase.after ph

theorem Phase.through_append {ph ph' : Phase} {ms : List Turn} (h : ph.through ms = some ph') (ns : List Turn) :
    ph.through (ms ++ ns) = ph'.through ns := by
  simp only [Phase.through] at h ⊢
  rw [List.foldlM_append, h]
  rfl

theorem Phase.written_through_bytes (data : List Byte) : Phase.written.through (data.map .push) = some .written := by
  induction data with
  | nil => rfl
  | cons b data ih => exact ih

theorem Phase.reading_through_requests (m : Nat) :
    Phase.reading.through (List.replicate m (.raise .rr)) = some .reading := by
  induction m with
  | zero => rfl
  | succ m ih => exact ih

/-- R106: every transaction goes through its phases to the end. -/
theorem Transaction.through_moves {x : Transaction} (h : x.legal = true) :
    Phase.fresh.through x.moves = some (if x = .probe then .probed else .finished) := by
  cases x with
  | probe => rfl
  | write a data =>
    have hbytes : Phase.fresh.through ([.raise .sd] ++ (a :: data).map .push) = some .written :=
      Phase.written_through_bytes data
    exact Phase.through_append hbytes _
  | read m =>
    obtain ⟨k, rfl⟩ : ∃ k, m = k + 1 := ⟨m - 1, by simp [Transaction.legal] at h; omega⟩
    have hread : Phase.fresh.through ([.raise .sd] ++ List.replicate (k + 1) (.raise .rr)) = some .reading :=
      Phase.reading_through_requests k
    exact Phase.through_append hread _
  | writeRead a data reported m =>
    obtain ⟨k, rfl⟩ : ∃ k, m = k + 1 := ⟨m - 1, by simp [Transaction.legal] at h; omega⟩
    have hbytes : Phase.fresh.through ([.raise .sd] ++ (a :: data).map .push) = some .written :=
      Phase.written_through_bytes data
    obtain ⟨mid, hmid, hread⟩ : ∃ mid, Phase.written.through (if reported then [.raise .sd] else []) = some mid ∧
        mid.through (List.replicate (k + 1) (.raise .rr)) = some .reading := by
      cases reported
      · exact ⟨.written, rfl, Phase.reading_through_requests k⟩
      · exact ⟨.restarted, rfl, Phase.reading_through_requests k⟩
    exact Phase.through_append ((Phase.through_append ((Phase.through_append hbytes _).trans hmid) _).trans hread) _

/-! ## The writing part -/

/-- Before any read-request and any repeated start: a start-detected is pending in `IDLE` alone, and READ is not
reached. -/
structure State.Writing (s : State) : Prop extends s.Underway where
  noRequest : s.pend.rr = false
  notRead : s.fsm ≠ .read
  started : s.pend.sd = true → s.fsm = .idle

/-- The engine's step there: start, start-write, a byte. -/
theorem State.Writing.serve_cases {s : State} (h : s.Writing) (hcond : s.cond ≠ 0#5) :
    (s.fsm = .idle ∧ s.pend.sd = true ∧ s.serve = (s.clear .sd).setFsm .start) ∨
    (s.fsm = .start ∧ s.rxq ≠ [] ∧ s.serve = s.setFsm .write) ∨
    (s.fsm = .write ∧ ∃ b rest, s.rxq = b :: rest ∧ s.serve = s.rxDrop.receive b) := by
  rcases h.toUnderway.serve_cases hcond with hstart | hwrite | ⟨-, -, -, hrr, -⟩ | hbyte | ⟨hf, -, hsd, -⟩ |
    ⟨-, -, -, hrr, -⟩ | ⟨-, -, -, hrr, -⟩
  · exact .inl hstart
  · exact .inr (.inl hwrite)
  · exact absurd (h.noRequest.symm.trans hrr) (by decide)
  · exact .inr (.inr hbyte)
  · exact absurd ((h.started hsd).symm.trans hf) (by decide)
  · exact absurd (h.noRequest.symm.trans hrr) (by decide)
  · exact absurd (h.noRequest.symm.trans hrr) (by decide)

theorem State.Writing.serve {s : State} (h : s.Writing) : s.serve.Writing := by
  by_cases hcond : s.cond = 0#5
  · rwa [State.serve_of_rest hcond]
  have hrr := h.noRequest
  have hsd := h.started
  have hunderway := h.toUnderway.serve
  rcases h.serve_cases hcond with ⟨-, -, he⟩ | ⟨hf, -, he⟩ | ⟨hf, b, rest, -, he⟩ <;> rw [he] at hunderway ⊢
  · exact ⟨hunderway, hrr, nofun, nofun⟩
  · exact ⟨hunderway, hrr, nofun, fun h => by rw [hf] at hsd; cases hsd h⟩
  · rw [State.receive_eq] at hunderway ⊢
    exact ⟨hunderway, hrr, h.notRead, hsd⟩

/-- There every move commutes with an engine step, but for a start-detected in `IDLE`. -/
theorem State.Writing.act_settles {s p q : State} {m : Turn} (h : s.Writing) (hs : s.Settles p) (hm : m.isMove = true)
    (hstart : m = .raise .sd → s.fsm ≠ .idle) (hq : (p.act m).Settles q) : (s.act m).Settles q := by
  refine hs.act (I := fun s => s.Writing ∧ (m = .raise .sd → s.fsm ≠ .idle)) ?_ ⟨h, hstart⟩ ?_ hq
  · rintro u ⟨hu, hne⟩
    refine ⟨hu.serve, fun heq => ?_⟩
    by_cases hcond : u.cond = 0#5
    · rw [State.serve_of_rest hcond]
      exact hne heq
    · rcases hu.serve_cases hcond with ⟨hf, -⟩ | ⟨-, -, he⟩ | ⟨hf, b, rest, -, he⟩
      · exact absurd hf (hne heq)
      · rw [he]; nofun
      · rw [he, State.receive_eq]; exact hne heq
  · rintro u ⟨hu, hne⟩ hcond
    refine hu.toUnderway.act_serve hu.noRequest hcond hm hne fun hf hempty => ?_
    rcases hu.serve_cases hcond with ⟨hf', -⟩ | ⟨hf', -⟩ | ⟨-, b, rest, hqueue, -⟩
    · exact absurd (hf.symm.trans hf') (by decide)
    · exact absurd (hf.symm.trans hf') (by decide)
    · exact absurd (hempty.symm.trans hqueue) (by simp)

/-- At rest a transaction has left `IDLE`. -/
theorem State.Underway.not_idle_of_rest {s : State} (h : s.Underway) (hrest : s.cond = 0#5) : s.fsm ≠ .idle :=
  fun hf => State.cond_ne_zero_of_has (c := .sd) (h.idle hf) hrest

/-- At rest a writing state is in START or in WRITE. -/
theorem State.Writing.fsm_of_rest {s : State} (h : s.Writing) (hrest : s.cond = 0#5) :
    s.fsm = .start ∨ s.fsm = .write := by
  cases hf : s.fsm with
  | idle => exact absurd hf (h.toUnderway.not_idle_of_rest hrest)
  | start => exact .inl rfl
  | write => exact .inr rfl
  | read => exact absurd hf h.notRead

/-- An engine turn raises no condition. -/
theorem State.serve_pend (s : State) (c : Latched) (h : s.serve.pend.has c = true) : s.pend.has c = true := by
  by_cases hcond : s.cond = 0#5
  · rwa [State.serve_of_rest hcond] at h
  · obtain ⟨-, hstep⟩ := State.serve_engineStep hcond
    obtain ⟨hpend, -⟩ := hstep.adds_nothing
    exact hpend c h

/-- A read-request commutes with every engine step before it. -/
theorem State.Underway.read_settles {s p q : State} (h : s.Underway) (hrr : s.pend.rr = false) (hs : s.Settles p)
    (hq : (p.act (.raise .rr)).Settles q) : (s.act (.raise .rr)).Settles q := by
  refine hs.act (I := fun s => s.Underway ∧ s.pend.rr = false) ?_ ⟨h, hrr⟩ ?_ hq
  · rintro u ⟨hu, hrr⟩
    refine ⟨hu.serve, ?_⟩
    exact Bool.eq_false_iff.2 fun h => Bool.eq_false_iff.1 hrr (u.serve_pend .rr h)
  · rintro u ⟨hu, hrr⟩ hcond
    exact hu.act_serve hrr hcond rfl nofun fun _ _ => rfl

end Sys2Proof.Machine

/-! # Proofs: a transaction has one effect -/

namespace Sys2Proof.Machine

/-! ## A late state and the prompt one -/

/-- What holds of a state after the moves of a phase, however late the engine is. -/
def Phase.Fits : Phase → State → Prop
  | .fresh, s => s.cond = 0#5 ∧ s.fsm = .idle
  | .opened, s => s.Writing
  | .written, s => s.Writing ∧ (s.fsm ≠ .write → s.rxq ≠ [])
  | .restarted, s => s.Underway
  | .reading, s => s.Underway ∧ (s.fsm ≠ .read → s.pend.rr = true)
  | .probed, _ => True
  | .finished, _ => True

/-- What holds of it where the transaction has ended and the engine is at rest. -/
def Phase.Ends : Phase → State → Prop
  | .probed, p => p.fsm = .idle
  | .finished, p => p.fsm = .idle ∧ p.writeInProgress = false
  | _, _ => True

theorem Phase.Fits.serve {ph : Phase} {s : State} (h : ph.Fits s) : ph.Fits s.serve := by
  by_cases hcond : s.cond = 0#5
  · rwa [State.serve_of_rest hcond]
  cases ph with
  | fresh => exact absurd h.1 hcond
  | opened => exact State.Writing.serve h
  | written =>
    obtain ⟨hw, hq⟩ := h
    refine ⟨hw.serve, ?_⟩
    rcases hw.serve_cases hcond with ⟨hf, -, he⟩ | ⟨-, -, he⟩ | ⟨hf, b, rest, -, he⟩
    · rw [he]; exact fun _ => hq (by rw [hf]; nofun)
    · rw [he]; exact fun hne => absurd rfl hne
    · rw [he, State.receive_eq]; exact fun hne => absurd hf hne
  | restarted => exact State.Underway.serve h
  | reading =>
    obtain ⟨hu, hrr⟩ := h
    refine ⟨hu.serve, ?_⟩
    rcases hu.serve_cases hcond with ⟨hf, -, he⟩ | ⟨hf, -, he⟩ | ⟨-, -, -, -, he⟩ | ⟨hf, b, rest, -, he⟩ |
      ⟨-, -, -, he⟩ | ⟨-, -, -, -, he⟩ | ⟨hf, -, -, -, he⟩
    · rw [he]; exact fun _ => hrr (by rw [hf]; nofun)
    · rw [he]; exact fun _ => hrr (by rw [hf]; nofun)
    · rw [he]; exact fun hne => absurd rfl hne
    · rw [he, State.receive_eq]; exact hrr
    · rw [he]; exact fun hne => absurd rfl hne
    · rw [he]; exact fun hne => absurd rfl hne
    · rw [he, State.readReq_eq]; exact fun hne => absurd hf hne
  | probed | finished => trivial

/-- The state `p` of the prompt schedule is the one that `s` comes to rest in, or would but for a repeated start that was
absorbed: `s` then rests in WRITE where `p` is in READ, until the read-request that follows. -/
structure Lag (ph : Phase) (s p : State) : Prop where
  fits : ph.Fits s
  ends : ph.Ends p
  reach : s.Settles p ∨ (ph = .restarted ∧ ∃ q, s.Settles q ∧ p = q.setFsm .read)

namespace Lag

variable {ph : Phase} {s p : State}

theorem rest (h : Lag ph s p) : p.cond = 0#5 := by
  rcases h.reach with hs | ⟨-, q, hs, rfl⟩
  · exact hs.rest
  · exact hs.rest

theorem serve (h : Lag ph s p) : Lag ph s.serve p :=
  ⟨h.fits.serve, h.ends, h.reach.imp State.Settles.serve fun ⟨hph, q, hs, hp⟩ => ⟨hph, q, hs.serve, hp⟩⟩

/-- But for a repeated start, the late state settles in the prompt one. -/
theorem settles (h : Lag ph s p) (hph : ph ≠ .restarted) : s.Settles p :=
  h.reach.resolve_right fun h => hph h.1

/-- The start of the transaction, which comes at rest. -/
theorem opened (h : Lag .fresh s p) : Lag .opened (s.act (.raise .sd)) (p.prompt (.raise .sd)) := by
  obtain ⟨hrest, hf⟩ := h.fits
  obtain rfl := (h.settles nofun).eq_of_rest hrest
  have hnone := State.has_eq_false_of_rest hrest
  refine ⟨?_, trivial, .inl (State.Settles.of_prompt ?_)⟩
  · have hne : ∀ f, s.fsm = f → f = .idle := fun f hf' => hf'.symm.trans hf
    exact {
      noStop := hnone .sp, noAbort := hnone .ab, noRequest := hnone .rr
      idle := fun _ => rfl
      start := fun hf' => nomatch hne _ hf'
      read := fun hf' => nomatch hne _ hf'
      notRead := fun hf' => nomatch hne _ hf'
      started := fun _ => hf }
  · rw [State.prompt_start hf hrest]
    exact hrest

/-- A byte. -/
theorem written (h : s.Writing) (hs : s.Settles p) (b : Byte) :
    Lag .written (s.act (.push b)) (p.prompt (.push b)) := by
  have hp : p.Writing := hs.keeps (fun _ => State.Writing.serve) h
  have hqueue : (s.act (.push b)).rxq ≠ [] := by simp [State.act]
  refine ⟨⟨?_, fun _ => hqueue⟩, trivial, .inl (h.act_settles hs rfl nofun (State.Settles.of_prompt ?_))⟩
  · exact {
      noStop := h.noStop, noAbort := h.noAbort, noRequest := h.noRequest, idle := h.idle
      start := fun _ _ => hqueue
      read := fun hf => absurd hf h.notRead
      notRead := h.notRead
      started := h.started }
  · exact State.prompt_push (hp.fsm_of_rest hs.rest) hs.rest b

/-- A stop after no byte: START faults. -/
theorem probed (h : s.Writing) (hs : s.Settles p) : Lag .probed (s.act (.raise .sp)) (p.prompt (.raise .sp)) := by
  have hp : p.Writing := hs.keeps (fun _ => State.Writing.serve) h
  have hprompt : (p.prompt (.raise .sp)).cond = 0#5 ∧ (p.prompt (.raise .sp)).fsm = .idle := by
    rcases hp.fsm_of_rest hs.rest with hf | hf
    · exact State.prompt_probe hf hs.rest
    · rw [State.prompt_stop (.inl hf) hs.rest]
      exact ⟨hs.rest, rfl⟩
  obtain ⟨hrest, hidle⟩ := hprompt
  exact ⟨trivial, hidle, .inl (h.act_settles hs rfl nofun (State.Settles.of_prompt hrest))⟩

/-- A stop after bytes. -/
theorem stopped (h : s.Writing) (hs : s.Settles p) (hf : p.fsm = .write) :
    Lag .finished (s.act (.raise .sp)) (p.prompt (.raise .sp)) := by
  have hprompt := State.prompt_stop (.inl hf) hs.rest
  have hrest : (p.prompt (.raise .sp)).cond = 0#5 := by
    rw [hprompt]
    exact hs.rest
  refine ⟨trivial, ?_, .inl (h.act_settles hs rfl nofun (State.Settles.of_prompt hrest))⟩
  rw [hprompt]
  exact ⟨rfl, rfl⟩

/-- A repeated start, absorbed where the first start is still pending. -/
theorem restarted (h : s.Writing) (hbytes : s.fsm ≠ .write → s.rxq ≠ []) (hs : s.Settles p) (hf : p.fsm = .write) :
    Lag .restarted (s.act (.raise .sd)) (p.prompt (.raise .sd)) := by
  have hprompt := State.prompt_restart hf hs.rest
  refine ⟨?_, trivial, ?_⟩
  · exact {
      noStop := h.noStop, noAbort := h.noAbort
      idle := fun _ => rfl
      start := fun hstart _ => hbytes (by rw [show s.fsm = .start from hstart]; nofun)
      read := fun hread => absurd hread h.notRead }
  · by_cases hidle : s.fsm = .idle
    · refine .inr ⟨rfl, p, ?_, hprompt⟩
      rw [State.act, State.envRaise_of_has (c := .sd) (h.idle hidle)]
      exact hs
    · refine .inl (h.act_settles hs rfl (fun _ => hidle) (State.Settles.of_prompt ?_))
      rw [hprompt]
      exact hs.rest

/-- A read-request, by which an absorbed repeated start has made no difference. -/
theorem requested {q : State} (h : s.Underway) (hrr : s.pend.rr = false) (hs : s.Settles q)
    (hp : p = q ∨ p = q.setFsm .read) : Lag .reading (s.act (.raise .rr)) (p.prompt (.raise .rr)) := by
  have hq : q.Underway := hs.keeps (fun _ => State.Underway.serve) h
  obtain ⟨hanswer, hrest⟩ := State.prompt_read (hq.not_idle_of_rest hs.rest) hs.rest
  have hprompt : p.prompt (.raise .rr) = q.prompt (.raise .rr) := by
    rcases hp with rfl | rfl
    · rfl
    · rw [hanswer]
      exact (State.prompt_read (p := q.setFsm .read) nofun hs.rest).1
  rw [hprompt]
  exact ⟨⟨⟨h.noStop, h.noAbort, h.idle, h.start, h.read⟩, fun _ => rfl⟩, trivial,
    .inl (h.read_settles hrr hs (State.Settles.of_prompt hrest))⟩

/-- A stop after a read-request, which comes at rest. -/
theorem readStopped (h : Lag .reading s p) (hrr : s.pend.rr = false) :
    Lag .finished (s.act (.raise .sp)) (p.prompt (.raise .sp)) := by
  obtain ⟨hu, hreq⟩ := h.fits
  have hf : s.fsm = .read := by
    by_contra hne
    exact absurd (hrr.symm.trans (hreq hne)) (by decide)
  obtain ⟨hsd, hq⟩ := hu.read hf
  have hrest : s.cond = 0#5 := by
    refine s.cond_eq_zero_iff.2 ⟨?_, hq⟩
    have hsp := hu.noStop
    have hab := hu.noAbort
    rcases hp : s.pend with ⟨sd, rr, sp, ab⟩
    simp_all
  obtain rfl := (h.settles nofun).eq_of_rest hrest
  have hprompt := State.prompt_stop (.inr hf) hrest
  refine ⟨trivial, ?_, .inl (State.Settles.of_prompt ?_)⟩ <;> rw [hprompt]
  · exact ⟨rfl, rfl⟩
  · exact hrest

/-- Every move that may come keeps the lag. -/
theorem act {ph' : Phase} {m : Turn} (h : Lag ph s p) (hrr : s.pend.rr = false) (hnext : ph.after m = some ph') :
    Lag ph' (s.act m) (p.prompt m) := by
  have hwrite : ph = .written → p.fsm = .write := fun hph => by
    subst hph
    have hp : Phase.written.Fits p := (h.settles nofun).keeps (fun _ => Phase.Fits.serve) h.fits
    by_contra hne
    exact hp.2 hne (p.cond_eq_zero_iff.1 h.rest).2
  -- the cases are the lines of `Phase.after`, in their order
  unfold Phase.after at hnext
  split at hnext <;> cases hnext
  case h_1 => exact h.opened
  case h_2 b => exact written h.fits (h.settles nofun) b
  case h_3 => exact requested h.fits.toUnderway hrr (h.settles nofun) (.inl rfl)
  case h_4 => exact probed h.fits (h.settles nofun)
  case h_5 b => exact written h.fits.1 (h.settles nofun) b
  case h_6 => exact restarted h.fits.1 h.fits.2 (h.settles nofun) (hwrite rfl)
  case h_7 => exact requested h.fits.1.toUnderway hrr (h.settles nofun) (.inl rfl)
  case h_8 => exact stopped h.fits.1 (h.settles nofun) (hwrite rfl)
  case h_9 =>
    rcases h.reach with hs | ⟨-, q, hs, hp⟩
    · exact requested h.fits hrr hs (.inl rfl)
    · exact requested h.fits hrr hs (.inr hp)
  case h_10 => exact requested h.fits.1 hrr (h.settles nofun) (.inl rfl)
  case h_11 => exact h.readStopped hrr

end Lag

/-- Through any orderly schedule of moves and engine turns the lag leads to the prompt end. -/
theorem Lag.play {ph ph' : Phase} {s p : State} {ts : List Turn} (h : Lag ph s p) (hts : Orderly s ts)
    (hph : ph.through (ts.filter (fun u => u != .engine)) = some ph') :
    Lag ph' (ts.foldl State.act s) ((ts.filter (fun u => u != .engine)).foldl State.prompt p) := by
  induction ts generalizing ph s p with
  | nil => cases hph; exact h
  | cons m ts ih =>
    obtain ⟨hm, hts⟩ := hts
    by_cases hengine : m = .engine
    · subst hengine
      exact ih h.serve hts hph
    · rw [List.filter_cons_of_pos (by simpa using hengine)] at hph ⊢
      obtain ⟨mid, hmid, hrest⟩ : ∃ mid, ph.after m = some mid ∧
          mid.through (ts.filter (fun u => u != .engine)) = some ph' := by
        simpa [Phase.through, Option.bind_eq_some_iff] using hph
      have hrr : s.pend.rr = false := by
        cases m with
        | raise c => exact hm.1
        | push b => exact hm.1.1
        | engine => exact absurd rfl hengine
        | localOp | pass | poll => exact hm.elim
      exact ih (h.act hrr hmid) hts hrest

/-! ## The prompt schedule (R113) -/

theorem foldl_act_promptly (ms : List Turn) (s : State) :
    (promptly ms).foldl State.act s = ms.foldl State.prompt s := by
  induction ms generalizing s with
  | nil => rfl
  | cons m ms ih => exact ih (s.prompt m)

theorem filter_promptly {ms : List Turn} (h : ∀ m ∈ ms, m.isMove = true) :
    (promptly ms).filter (fun u => u != .engine) = ms := by
  induction ms with
  | nil => rfl
  | cons m ms ih =>
    have hne : m ≠ .engine := fun he => by
      have hm := h m List.mem_cons_self
      rw [he] at hm
      cases hm
    have htail := ih fun m hm => h m (List.mem_cons_of_mem _ hm)
    change ([m, .engine, .engine] ++ promptly ms).filter _ = _
    rw [List.filter_append, htail]
    simp [hne]

/-- The engine keeps the configuration through a move and its two turns. -/
theorem State.prompt_config (s : State) (m : Turn) : (s.prompt m).config = s.config :=
  (s.act m).serve.serve_keeps.1.trans ((s.act m).serve_keeps.1.trans (s.act_config m))

/-- The prompt schedule of a transaction is orderly, under either policy, where the queue has room for one byte. -/
theorem Lag.orderly_promptly {ph ph' : Phase} {p : State} {ms : List Turn} (h : Lag ph p p)
    (hroom : ∀ b, .push b ∈ ms → ∀ d, p.config.rxDepth = some d → 0 < d) (hms : ∀ m ∈ ms, m.isMove = true)
    (hph : ph.through ms = some ph') : Orderly p (promptly ms) := by
  induction ms generalizing ph p with
  | nil => trivial
  | cons m ms ih =>
    obtain ⟨mid, hmid, hrest⟩ : ∃ mid, ph.after m = some mid ∧ mid.through ms = some ph' := by
      simpa [Phase.through, Option.bind_eq_some_iff] using hph
    obtain ⟨-, hq⟩ := p.cond_eq_zero_iff.1 h.rest
    have hready : p.readyForMove := ⟨State.has_eq_false_of_rest h.rest .rr, fun _ => h.rest⟩
    have hadmits : p.admits m := by
      cases m with
      | raise c => exact hready
      | push b =>
        refine ⟨hready, ?_⟩
        unfold State.rxHasRoom
        split
        · rfl
        · rename_i d hd
          simpa [hq] using hroom b List.mem_cons_self d hd
      | engine | localOp | pass | poll => cases hms _ List.mem_cons_self
    have hnext : Lag mid (p.prompt m) (p.prompt m) := (h.act hready.1 hmid).serve.serve
    refine ⟨hadmits, trivial, trivial, ih hnext (fun b hb d hd => ?_) (fun m hm => hms m (List.mem_cons_of_mem _ hm)) hrest⟩
    exact hroom b (List.mem_cons_of_mem _ hb) d ((congrArg Config.rxDepth (p.prompt_config m)).symm.trans hd)

end Sys2Proof.Machine

/-! # Proofs: conforming and prompt schedules -/

namespace Sys2Proof.Machine

/-! ## The schedules of R106 are orderly -/

/-- A move of the environment or a turn of the engine. -/
def Turn.plain (m : Turn) : Prop := m = .engine ∨ m.isMove = true

/-- Such a turn, where it is taken, does what `State.act` says, and a byte has found room. -/
theorem State.Serving.act_of_step {s v : State} (h : s.Serving) {m : Turn} (hm : m.plain) {ts : List Turn}
    (hstep : step { s with schedule := m :: ts } = .next v) :
    v = { s.act m with schedule := ts } ∧ ∀ b, m = .push b → s.rxHasRoom = true := by
  rw [step_of_not_halted (s := { s with schedule := m :: ts }) h.running] at hstep
  cases m with
  | raise c => cases hstep; exact ⟨rfl, nofun⟩
  | push b =>
    change pushTurn b { s with schedule := ts } = .next v at hstep
    unfold pushTurn at hstep
    split at hstep
    case isTrue hroom => cases hstep; exact ⟨rfl, fun _ _ => hroom⟩
    case isFalse => cases hstep
  | engine =>
    have hserve := (h.engineTurn_schedule ts).symm.trans hstep
    cases hserve
    exact ⟨rfl, nofun⟩
  | localOp | pass | poll => rcases hm with hm | hm <;> cases hm

theorem conformingRun_succ {n : Nat} {first : Bool} {s : State} (h : conformingRun (n + 1) first s = true) :
    s.schedule.head?.all (conformingTurn first s) = true ∧ ∃ t, step s = .next t ∧
      conformingRun n (first && !s.schedule.head?.any Turn.isMove) t = true := by
  rw [conformingRun, Bool.and_eq_true] at h
  obtain ⟨hturn, hrun⟩ := h
  refine ⟨hturn, ?_⟩
  split at hrun
  case h_1 t ht => exact ⟨t, ht, hrun⟩
  all_goals cases hrun

theorem promptRun_succ {n : Nat} {s : State} (h : promptRun (n + 1) s = true) :
    s.schedule.head?.all (promptTurn s) = true ∧ ∃ t, step s = .next t ∧ promptRun n t = true := by
  rw [promptRun, Bool.and_eq_true] at h
  obtain ⟨hturn, hrun⟩ := h
  refine ⟨hturn, ?_⟩
  split at hrun
  case h_1 t ht => exact ⟨t, ht, hrun⟩
  all_goals cases hrun

/-- A move is admitted where the state is ready and a byte finds room. -/
theorem State.admits_of_ready {s : State} {m : Turn} (hm : m.plain) (hready : m.isMove = true → s.readyForMove)
    (hroom : ∀ b, m = .push b → s.rxHasRoom = true) : s.admits m := by
  cases m with
  | raise c => exact hready rfl
  | push b => exact ⟨hready rfl, hroom b rfl⟩
  | engine => trivial
  | localOp | pass | poll => rcases hm with hm | hm <;> cases hm

/-- R106 (a), under `priority`. -/
theorem orderly_of_conformingRun {s : State} {ts : List Turn} {first : Bool} (h : s.Serving)
    (hpolicy : s.config.condPolicy = .priority) (hplain : ∀ m ∈ ts, m.plain)
    (hrun : conformingRun ts.length first { s with schedule := ts } = true) : Orderly s ts := by
  induction ts generalizing s first with
  | nil => trivial
  | cons m ts ih =>
    obtain ⟨hturn, t, hstep, hrun⟩ := conformingRun_succ hrun
    obtain ⟨rfl, hroom⟩ := h.act_of_step (hplain m List.mem_cons_self) hstep
    have hready : m.isMove = true → s.readyForMove := fun hmove => by
      refine ⟨?_, fun hstrict => absurd (hpolicy.symm.trans hstrict) (by decide)⟩
      cases m with
      | raise c | push b => simp [conformingTurn] at hturn; simp [hturn]
      | engine | localOp | pass | poll => cases hmove
    have hm := State.admits_of_ready (hplain m List.mem_cons_self) hready hroom
    exact ⟨hm, ih (h.act hm) ((congrArg Config.condPolicy (s.act_config m)).trans hpolicy)
      (fun m hm => hplain m (List.mem_cons_of_mem _ hm)) hrun⟩

/-- R148: a prompt environment's schedule is orderly under either policy. -/
theorem orderly_of_promptRun {s : State} {ts : List Turn} (h : s.Serving) (hplain : ∀ m ∈ ts, m.plain)
    (hrun : promptRun ts.length { s with schedule := ts } = true) (p : CondPolicy) (r : List Turn) :
    Orderly (s.under p r) ts := by
  induction ts generalizing s with
  | nil => trivial
  | cons m ts ih =>
    obtain ⟨hturn, t, hstep, hrun⟩ := promptRun_succ hrun
    obtain ⟨rfl, hroom⟩ := h.act_of_step (hplain m List.mem_cons_self) hstep
    have hrest : m.isMove = true → s.cond = 0#5 := fun hmove => by
      have hprompt : promptTurn s m = true := hturn
      simpa [promptTurn, hmove] using hprompt
    have hready : ∀ p r, m.isMove = true → (s.under p r).readyForMove := fun p r hmove =>
      ⟨State.has_eq_false_of_rest (hrest hmove) .rr, fun _ => hrest hmove⟩
    have hm : ∀ p r, (s.under p r).admits m := fun p r =>
      State.admits_of_ready (hplain m List.mem_cons_self) (hready p r) hroom
    refine ⟨hm p r, ?_⟩
    rw [State.act_under]
    exact ih (h.act (hm s.config.condPolicy s.schedule)) (fun m hm => hplain m (List.mem_cons_of_mem _ hm)) hrun

/-- D31: a byte that was pushed found room in the queue. -/
theorem Orderly.room {s : State} {ts : List Turn} (h : Orderly s ts) {b : Byte} (hb : .push b ∈ ts) {d : Nat}
    (hd : s.config.rxDepth = some d) : 0 < d := by
  induction ts generalizing s with
  | nil => cases hb
  | cons m ts ih =>
    obtain ⟨hm, hts⟩ := h
    rcases List.mem_cons.1 hb with rfl | hb
    · have hroom : s.rxHasRoom = true := hm.2
      rw [State.rxHasRoom, hd] at hroom
      have hlt : s.rxq.length < d := by simpa using hroom
      omega
    · exact ih hts hb ((congrArg Config.rxDepth (s.act_config m)).trans hd)

/-! ## The effect of a transaction -/

theorem Transaction.isMove_of_mem {x : Transaction} {m : Turn} (h : m ∈ x.moves) : m.isMove = true := by
  have hpush : ∀ data : List Byte, m ∈ data.map Turn.push → m.isMove = true := fun data hm => by
    obtain ⟨b, -, rfl⟩ := List.mem_map.1 hm
    rfl
  cases x with
  | probe => rcases List.mem_pair.1 h with rfl | rfl <;> rfl
  | write a data =>
    simp only [Transaction.moves, List.mem_append, List.mem_singleton] at h
    rcases h with (rfl | hm) | rfl
    · rfl
    · exact hpush _ hm
    · rfl
  | read k =>
    simp only [Transaction.moves, List.mem_append, List.mem_singleton, List.mem_replicate] at h
    rcases h with (rfl | ⟨-, rfl⟩) | rfl <;> rfl
  | writeRead a data reported k =>
    simp only [Transaction.moves, List.mem_append, List.mem_singleton, List.mem_replicate] at h
    rcases h with (((rfl | hm) | hm) | ⟨-, rfl⟩) | rfl
    · rfl
    · exact hpush _ hm
    · cases reported
      · cases hm
      · rw [List.mem_singleton.1 hm]; rfl
    · rfl
    · rfl

/-- A schedule of a transaction's moves and of engine turns holds nothing else. -/
theorem Transaction.plain_of_filter {x : Transaction} {ts : List Turn} (h : ts.filter (fun u => u != .engine) = x.moves) :
    ∀ m ∈ ts, m.plain := by
  intro m hm
  by_cases hengine : m = .engine
  · exact .inl hengine
  · refine .inr (Transaction.isMove_of_mem (x := x) ?_)
    rw [← h]
    exact List.mem_filter.2 ⟨hm, by simpa using hengine⟩

/-- What a transaction does: its moves, each answered at once (R113). -/
def Transaction.effect (x : Transaction) (s : State) : State := x.moves.foldl State.prompt s

/-- The phase a transaction ends in. -/
def Transaction.lastPhase (x : Transaction) : Phase := if x = .probe then .probed else .finished

theorem Lag.start {s : State} (hidle : s.fsm = .idle) (hcond : s.cond = 0#5) : Lag .fresh s s :=
  ⟨⟨hcond, hidle⟩, trivial, .inl (State.Settles.of_rest hcond)⟩

section

variable {s : State} {x : Transaction} {ts : List Turn}
variable (hidle : s.fsm = .idle) (hcond : s.cond = 0#5) (hlegal : x.legal = true)
include hidle hcond hlegal

/-- R148: however late the engine, at the end of the schedule it is on its way to the effect. -/
theorem Transaction.lag_effect (hfilter : ts.filter (fun u => u != .engine) = x.moves) (hts : Orderly s ts) :
    Lag x.lastPhase (ts.foldl State.act s) (x.effect s) := by
  have hplay := (Lag.start hidle hcond).play hts (hfilter.symm ▸ Transaction.through_moves hlegal)
  rwa [hfilter] at hplay

/-- At rest after the schedule, the effect has come about. -/
theorem Transaction.eq_effect_of_rest (hs : s.Serving) (hfilter : ts.filter (fun u => u != .engine) = x.moves)
    (hts : Orderly s ts) {n : Nat} {t : State} (hn : ts.length ≤ n)
    (hrun : Sys2Proof.core.run n { s with schedule := ts } = .next t) (ht : t.cond = 0#5) :
    t = { x.effect s with schedule := [] } := by
  have hlag := Transaction.lag_effect hidle hcond hlegal hfilter hts
  have hsettles := hlag.settles (by unfold Transaction.lastPhase; split <;> nofun)
  rw [hs.run_orderly hts n, List.take_of_length_le hn, List.drop_of_length_le hn] at hrun
  cases hrun
  rw [(hsettles.iterate _).eq_of_rest ht]

/-- The transaction ends in `IDLE` with nothing pending, `wip` false but after a probe. -/
theorem Transaction.effect_rests (hfilter : ts.filter (fun u => u != .engine) = x.moves) (hts : Orderly s ts) :
    (x.effect s).fsm = .idle ∧ (x.effect s).cond = 0#5 ∧ (x ≠ .probe → (x.effect s).writeInProgress = false) := by
  have hlag := Transaction.lag_effect hidle hcond hlegal hfilter hts
  have hends := hlag.ends
  unfold Transaction.lastPhase at hends
  split at hends
  case isTrue hx => exact ⟨hends, hlag.rest, fun hne => absurd hx hne⟩
  case isFalse => exact ⟨hends.1, hlag.rest, fun _ => hends.2⟩

/-- The prompt schedule of a transaction is orderly. -/
theorem Transaction.orderly_promptly (hroom : ∀ b, .push b ∈ x.moves → ∀ d, s.config.rxDepth = some d → 0 < d) :
    Orderly s (promptly x.moves) :=
  (Lag.start hidle hcond).orderly_promptly hroom (fun _ => Transaction.isMove_of_mem)
    (Transaction.through_moves hlegal)

/-- R113: the prompt schedule runs, to the effect. -/
theorem Transaction.run_promptly (hs : s.Serving)
    (hroom : ∀ b, .push b ∈ x.moves → ∀ d, s.config.rxDepth = some d → 0 < d) :
    Sys2Proof.core.run (promptly x.moves).length { s with schedule := promptly x.moves } =
      .next { x.effect s with schedule := [] } := by
  rw [hs.run_orderly (Transaction.orderly_promptly hidle hcond hlegal hroom), List.take_length, List.drop_length,
    Nat.sub_self, foldl_act_promptly]
  rfl

end

/-- Under `priority` a running and enabled engine serves. -/
theorem State.Serving.of_priority {s : State} (hrun : s.halted = false) (henabled : s.enabled = true)
    (hpolicy : s.config.condPolicy = .priority) : s.Serving :=
  ⟨hrun, henabled, fun hstrict => absurd (hpolicy.symm.trans hstrict) (by decide)⟩

/-- Settles O29: both schedules lead to the transaction's effect, by the lag between a late engine and a prompt one. -/
theorem conformingTransactionsDoNotDependOnTheSchedule :
    Obligations.ConformingTransactionsDoNotDependOnTheSchedule := by
  intro s t x ts n hrun henabled hidle hcond hpolicy hlegal hfilter hconforming hn ht hrest
  have hs := State.Serving.of_priority hrun henabled hpolicy
  have hts := orderly_of_conformingRun hs hpolicy (Transaction.plain_of_filter hfilter) hconforming
  have hroom : ∀ b, .push b ∈ x.moves → ∀ d, s.config.rxDepth = some d → 0 < d := fun b hb d hd => by
    rw [← hfilter] at hb
    exact hts.room (List.mem_filter.1 hb).1 hd
  obtain rfl := Transaction.eq_effect_of_rest hidle hcond hlegal hs hfilter hts hn ht hrest
  obtain ⟨hend, -⟩ := Transaction.effect_rests hidle hcond hlegal hfilter hts
  exact ⟨hend, Transaction.run_promptly hidle hcond hlegal hs hroom⟩

/-! ## The two policies (R148) -/

theorem State.foldl_act_under (s : State) (p : CondPolicy) (r ts : List Turn) :
    ts.foldl State.act (s.under p r) = (ts.foldl State.act s).under p r := by
  induction ts generalizing s with
  | nil => rfl
  | cons m ts ih => rw [List.foldl_cons, State.act_under, ih, List.foldl_cons]

theorem State.iterate_serve_under (s : State) (p : CondPolicy) (r : List Turn) (k : Nat) :
    State.serve^[k] (s.under p r) = (State.serve^[k] s).under p r := by
  have hcommute : Function.Semiconj (fun s : State => s.under p r) State.serve State.serve :=
    fun s => (s.serve_under p r).symm
  exact (hcommute.iterate_right k s).symm

theorem State.foldl_act_config (s : State) (ts : List Turn) : (ts.foldl State.act s).config = s.config := by
  induction ts generalizing s with
  | nil => rfl
  | cons m ts ih => exact (ih (s.act m)).trans (s.act_config m)

theorem State.iterate_serve_config (s : State) (k : Nat) : (State.serve^[k] s).config = s.config :=
  Function.Iterate.rec (fun t : State => t.config = s.config) rfl (fun t ht => t.serve_keeps.1.trans ht) k

/-- On a schedule that is orderly under either policy, the two runs are one run but for the policy. -/
theorem run_strict_of_priority {s : State} {ts : List Turn} (hs : s.Serving) (hcond : s.cond = 0#5)
    (hts : ∀ p, Orderly (s.under p s.schedule) ts) (n : Nat) :
    let strict : Config := { s.config with condPolicy := .strict }
    ∃ t, Sys2Proof.core.run n { s with schedule := ts } = .next t ∧
      Sys2Proof.core.run n { s with config := strict, schedule := ts } = .next { t with config := strict } := by
  intro strict
  have hstrict : (s.under .strict s.schedule).Serving :=
    ⟨hs.running, hs.enabled, fun _ => State.calm_of_rest (s := s.under .strict s.schedule) hcond⟩
  refine ⟨_, hs.run_orderly (hts s.config.condPolicy) n, ?_⟩
  refine (hstrict.run_orderly (hts .strict) n).trans ?_
  rw [State.foldl_act_under, State.iterate_serve_under]
  have hconfig := ((ts.take n).foldl State.act s).iterate_serve_config (n - ts.length)
  rw [State.foldl_act_config] at hconfig
  simp only [State.under, hconfig, strict]

/-- Settles O45: a prompt schedule is orderly under either policy, so that both run alike, to the transaction's
effect. -/
theorem promptTransactionsAreTheSameUnderBothPolicies :
    Obligations.PromptTransactionsAreTheSameUnderBothPolicies := by
  intro s x hrun henabled hidle hcond hpolicy hdepth hlegal strict
  have hs := State.Serving.of_priority hrun henabled hpolicy
  have hroom : ∀ b, .push b ∈ x.moves → ∀ d, s.config.rxDepth = some d → 0 < d := fun _ _ => hdepth
  have hpromptly := Transaction.run_promptly hidle hcond hlegal hs hroom
  have horderly : ∀ p, Orderly (s.under p s.schedule) (promptly x.moves) := fun p =>
    Transaction.orderly_promptly (s := s.under p s.schedule) hidle hcond hlegal hroom
  refine ⟨?_, fun ts n hfilter hprompt => ?_⟩
  · obtain ⟨t, ht, htstrict⟩ := run_strict_of_priority hs hcond horderly (promptly x.moves).length
    obtain rfl : t = { x.effect s with schedule := [] } := by
      rw [hpromptly] at ht
      cases ht
      rfl
    obtain ⟨hend, hrest, hwip⟩ := Transaction.effect_rests hidle hcond hlegal
      (filter_promptly fun _ => Transaction.isMove_of_mem) (horderly s.config.condPolicy)
    exact ⟨_, hpromptly, htstrict, hend, hrest, rfl, hwip⟩
  · have hts := orderly_of_promptRun hs (Transaction.plain_of_filter hfilter) hprompt
    obtain ⟨t, ht, htstrict⟩ := run_strict_of_priority hs hcond (fun p => hts p s.schedule) n
    refine ⟨t, ht, htstrict, fun hn hrest => ?_⟩
    obtain rfl := Transaction.eq_effect_of_rest hidle hcond hlegal hs hfilter (hts s.config.condPolicy s.schedule) hn ht
      hrest
    exact hpromptly

end Sys2Proof.Machine

/-! # Proofs: the slave events, one by one and in runs -/

namespace Sys2Proof.Machine

/-! ## Each event by itself (R161 to R165) -/

/-- R107: `ev` followed by any nine bits is an event word. -/
theorem exists_append_eq_eventWord (ev : BitVec 2) (x : BitVec 9) : ∃ wip b, ev ++ x = eventWord ev wip b := by
  obtain ⟨ev', wip, b, hw, hev⟩ := exists_eventWord_eq (ev ++ x)
  rw [BitVec.extractLsb'_append_eq_left] at hev
  exact ⟨wip, b, hev ▸ hw⟩

/-- R107: REQUEST and FINISH ignore the bits after `ev`. -/
theorem decodeEvent_request_finish (x : BitVec 9) :
    decodeEvent (1#2 ++ x) = .ok .request ∧ decodeEvent (2#2 ++ x) = .ok .finish := by
  obtain ⟨wip, b, hrequest⟩ := exists_append_eq_eventWord 1#2 x
  obtain ⟨wip', b', hfinish⟩ := exists_append_eq_eventWord 2#2 x
  rw [hrequest, hfinish]
  exact ⟨decodeEvent_eventWord 1#2 wip b, decodeEvent_eventWord 2#2 wip' b'⟩

/-- Settles O18: the words by `decodeEvent_receive` and `decodeEvent_request_finish`; each event is its pseudocode. -/
theorem addressPhaseAndFinishTouchNoRegister : Obligations.AddressPhaseAndFinishTouchNoRegister :=
  fun _ b x => ⟨decodeEvent_receive false b, (decodeEvent_request_finish x).2, rfl, rfl⟩

/-- R76: the register that RECEIVE.DATA writes is the one at the cursor, unless the table protects it. -/
theorem State.writes_at_cursor_iff (s : State) (a : Addr) :
    (a = s.cursor ∧ s.ro s.cursor = false) ↔ (a = s.cursor ∧ s.ro a = false) :=
  and_congr_right fun ha => by rw [ha]

/-- Settles O19: the fields by `State.receiveData_eq`, the register and the dirty bit by RECEIVE.DATA's laws. -/
theorem dataPhaseStoresUnlessReadOnlyAndAdvances : Obligations.DataPhaseStoresUnlessReadOnlyAndAdvances := by
  intro s b
  refine ⟨decodeEvent_receive true b, _, rfl, ?_, fun a => ?_, fun a => ?_⟩
  · conv_lhs => rw [State.receiveData_eq]
    rfl
  · exact (s.reg_receiveData b a).trans (if_congr (s.writes_at_cursor_iff a) rfl rfl)
  · exact (s.dirty_receiveData b a).trans (if_congr (s.writes_at_cursor_iff a) rfl rfl)

/-- Settles O20: the fields by `State.request_eq`, the registers by REQUEST's law. -/
theorem requestReturnsTheOldByteAndAcknowledges : Obligations.RequestReturnsTheOldByteAndAcknowledges := by
  intro s x
  refine ⟨(decodeEvent_request_finish x).1, _, rfl, ?_, s.reg_request⟩
  conv_lhs => rw [State.request_eq]
  rfl

/-! ## The bytes of a queue, one after the other (R166) -/

/-- R73: the addresses the cursor comes to, counted from the one after it. -/
theorem cursor_add_succ (c : Addr) (i : Nat) : c + 1#8 + BitVec.ofNat 8 i = c + BitVec.ofNat 8 (i + 1) := by
  rw [BitVec.add_assoc, Nat.add_comm i, BitVec.ofNat_add]

/-- RECEIVE.DATA on each byte of a list, the first one first. -/
def State.receiveAll (s : State) (bs : List Byte) : State := bs.foldl State.receiveData s

namespace State

variable (s : State)

theorem receiveAll_cons (b : Byte) (bs : List Byte) : s.receiveAll (b :: bs) = (s.receiveData b).receiveAll bs := rfl

@[simp] theorem receiveData_cursor (b : Byte) : (s.receiveData b).cursor = s.cursor + 1#8 := rfl

@[simp] theorem receiveData_ro (b : Byte) (a : Addr) : (s.receiveData b).ro a = s.ro a := by
  rw [receiveData_eq]
  rfl

/-- R162: RECEIVE.DATA does not look at the queue. -/
theorem receiveData_withQueue (q : List Byte) (b : Byte) :
    ({ s with rxq := q } : State).receiveData b = { s.receiveData b with rxq := q } := by
  have hro : ({ s with rxq := q } : State).ro s.cursor = s.ro s.cursor := rfl
  unfold receiveData busWrite
  rw [hro]
  split <;> rfl

/-- R166, as a record. -/
theorem receiveAll_eq (bs : List Byte) :
    s.receiveAll bs = { s with
      registers := (s.receiveAll bs).registers, modified := (s.receiveAll bs).modified
      cursor := s.cursor + BitVec.ofNat 8 bs.length } := by
  -- the two fields that change by name, so that no rewrite reaches into them
  suffices h : ∃ registers modified, s.receiveAll bs = { s with
      registers := registers, modified := modified, cursor := s.cursor + BitVec.ofNat 8 bs.length } by
    obtain ⟨registers, modified, h⟩ := h
    rw [h]
  induction bs generalizing s with
  | nil => exact ⟨s.registers, s.modified, by simp [receiveAll]⟩
  | cons b bs ih =>
    obtain ⟨registers, modified, h⟩ := ih (s.receiveData b)
    rw [receiveData_cursor, cursor_add_succ] at h
    refine ⟨registers, modified, h.trans ?_⟩
    rw [receiveData_eq]
    rfl

/-- R76, R162: what RECEIVE.DATA leaves alone, a read-only address or one the cursor is not at. -/
theorem receiveData_untouched {a : Addr} (h : s.ro a = true ∨ s.cursor ≠ a) (b : Byte) :
    (s.receiveData b).reg a = s.reg a ∧ (s.receiveData b).dirty a = s.dirty a := by
  have hnot : ¬(a = s.cursor ∧ s.ro s.cursor = false) := by
    rintro ⟨rfl, hro⟩
    rcases h with h | h
    · rw [hro] at h; cases h
    · exact h rfl
  exact ⟨(s.reg_receiveData b a).trans (if_neg hnot), (s.dirty_receiveData b a).trans (if_neg hnot)⟩

/-- R76, R166: what a run of data bytes leaves alone, a read-only address or one the cursor does not come to. -/
theorem receiveAll_untouched (bs : List Byte) {a : Addr}
    (h : s.ro a = true ∨ ∀ i, i < bs.length → s.cursor + BitVec.ofNat 8 i ≠ a) :
    (s.receiveAll bs).reg a = s.reg a ∧ (s.receiveAll bs).dirty a = s.dirty a := by
  induction bs generalizing s with
  | nil => exact ⟨rfl, rfl⟩
  | cons b bs ih =>
    have hhead : s.ro a = true ∨ s.cursor ≠ a := h.imp_right fun h => by simpa using h 0 (by simp)
    have htail : (s.receiveData b).ro a = true ∨
        ∀ i, i < bs.length → (s.receiveData b).cursor + BitVec.ofNat 8 i ≠ a := by
      rw [receiveData_ro, receiveData_cursor]
      exact h.imp_right fun h i hi => cursor_add_succ s.cursor i ▸ h (i + 1) (by simpa using hi)
    obtain ⟨hreg, hdirty⟩ := ih (s.receiveData b) htail
    obtain ⟨hreg', hdirty'⟩ := s.receiveData_untouched hhead b
    exact ⟨hreg.trans hreg', hdirty.trans hdirty'⟩

/-- R166: the last byte offered to a writable address stays there. -/
theorem receiveAll_written (bs : List Byte) {i : Nat} (hi : i < bs.length)
    (hro : s.ro (s.cursor + BitVec.ofNat 8 i) = false)
    (hlast : ∀ j, i < j → j < bs.length → s.cursor + BitVec.ofNat 8 j ≠ s.cursor + BitVec.ofNat 8 i) :
    (s.receiveAll bs).reg (s.cursor + BitVec.ofNat 8 i) = bs[i] ∧
      (s.receiveAll bs).dirty (s.cursor + BitVec.ofNat 8 i) = true := by
  induction bs generalizing s i with
  | nil => cases hi
  | cons b bs ih =>
    cases i with
    | zero =>
      rw [BitVec.add_zero] at hro hlast ⊢
      have hlater : ∀ j, j < bs.length → (s.receiveData b).cursor + BitVec.ofNat 8 j ≠ s.cursor := fun j hj =>
        cursor_add_succ s.cursor j ▸ hlast (j + 1) j.succ_pos (by simpa using hj)
      obtain ⟨hreg, hdirty⟩ := (s.receiveData b).receiveAll_untouched bs (.inr hlater)
      exact ⟨hreg.trans ((s.reg_receiveData b _).trans (if_pos ⟨rfl, hro⟩)),
        hdirty.trans ((s.dirty_receiveData b _).trans (if_pos ⟨rfl, hro⟩))⟩
    | succ i =>
      have htail := ih (s.receiveData b) (i := i) (by simpa using hi)
      rw [receiveData_ro, receiveData_cursor, cursor_add_succ] at htail
      refine htail hro fun j hij hj => ?_
      rw [cursor_add_succ]
      exact hlast (j + 1) (by omega) (by simpa using hj)

end State

/-- The engine alone in WRITE in the data phase, under `strict` with no abort pending. -/
structure State.DataPhase (s : State) : Prop where
  alone : s.engineAlone
  fsm : s.fsm = .write
  wip : s.writeInProgress = true
  noAbort : s.config.condPolicy = .strict → s.pend.ab = false

namespace State.DataPhase

variable {s : State}

/-- R105, R137: a waiting byte is the engine's next step. -/
theorem step_eq {b : Byte} {rest : List Byte} (h : s.DataPhase) (hq : s.rxq = b :: rest) :
    step s = .next { s.receiveData b with rxq := rest } := by
  obtain ⟨hrun, henabled, hschedule⟩ := h.alone
  have hne : s.rxq ≠ [] := hq ▸ List.cons_ne_nil b rest
  have hhandled : ¬(s.config.condPolicy = .strict ∧ s.condBits.unhandled s.fsm) := by
    rintro ⟨hp, habort⟩
    rw [h.fsm, s.handled_write_iff.2 (h.noAbort hp)] at habort
    cases habort
  have hdec := decodeBranch_state s
  rw [if_neg hhandled, (s.branch_eq_iff .tWriteRx).2 ⟨h.fsm, hne⟩] at hdec
  rw [step_of_schedule_nil hrun hschedule, engineTurn_eq_exec henabled (cond_ne_zero_of_rxq hne) hdec,
    tWriteRx_of_wip hq h.wip, receiveData_withQueue]

theorem received (h : s.DataPhase) (b : Byte) (q : List Byte) :
    ({ s.receiveData b with rxq := q } : State).DataPhase := by
  rw [receiveData_eq]
  exact ⟨h.alone, h.fsm, h.wip, h.noAbort⟩

/-- R166: the engine receives the queue, one byte each step. -/
theorem run_queue (h : s.DataPhase) :
    Sys2Proof.core.run s.rxq.length s = .next (({ s with rxq := [] } : State).receiveAll s.rxq) := by
  generalize hq : s.rxq = q
  induction q generalizing s with
  | nil =>
    have hs : { s with rxq := [] } = s := by rw [← hq]
    rw [hs]
    rfl
  | cons b rest ih =>
    rw [List.length_cons, run_succ (h.step_eq hq), ih (h.received b rest) rfl, receiveAll_cons,
      s.receiveData_withQueue [] b]

end State.DataPhase

/-- Settles O43: the run by `State.DataPhase.run_queue`, its effect by the laws of `State.receiveAll`. -/
theorem dataBytesLandAtRisingAddresses : Obligations.DataBytesLandAtRisingAddresses := by
  intro s halone hf hwip hstrict
  have h : s.DataPhase := ⟨halone, hf, hwip, hstrict⟩
  exact ⟨_, h.run_queue, State.receiveAll_eq _ s.rxq,
    fun _ hi hro hlast => State.receiveAll_written { s with rxq := [] } s.rxq hi hro hlast,
    fun _ ha => State.receiveAll_untouched { s with rxq := [] } s.rxq ha⟩

/-! ## Read-requests, each answered before the next (R166) -/

/-- What a register reads after a number of requests: zero at the two interrupt-pending registers once the cursor has
passed over `A_INT2` (R164). -/
def State.regAfterReads (s : State) (m : Nat) (a : Addr) : Byte :=
  if (List.range m).any (fun i => s.cursor + BitVec.ofNat 8 i == s.config.map.interrupt2)
      && (a == s.config.map.interrupt1 || a == s.config.map.interrupt2)
  then 0x00#8 else s.reg a

/-- R164: the acknowledge of one request more. -/
theorem State.regAfterReads_succ (s : State) (m : Nat) (a : Addr) :
    s.regAfterReads (m + 1) a =
      if s.cursor + BitVec.ofNat 8 m = s.config.map.interrupt2 ∧
          (a = s.config.map.interrupt1 ∨ a = s.config.map.interrupt2)
      then 0x00#8 else s.regAfterReads m a := by
  unfold State.regAfterReads
  rw [List.range_succ, List.any_append]
  by_cases hack : s.cursor + BitVec.ofNat 8 m = s.config.map.interrupt2 <;>
    by_cases ha : a = s.config.map.interrupt1 ∨ a = s.config.map.interrupt2 <;> simp [hack, ha]

/-- The second state is the first one after a number of answered read-requests in READ. -/
structure State.ReadsTo (s : State) (m : Nat) (t : State) : Prop where
  config : t.config = s.config
  fsm : t.fsm = .read
  rest : t.cond = 0#5
  cursor : t.cursor = s.cursor + BitVec.ofNat 8 m
  reg : ∀ a, t.reg a = s.regAfterReads m a
  txlog : t.txlog = s.txlog ++ (List.range m).map (fun j => s.regAfterReads j (s.cursor + BitVec.ofNat 8 j))

theorem State.ReadsTo.zero {s : State} (hf : s.fsm = .read) (hrest : s.cond = 0#5) : s.ReadsTo 0 s :=
  ⟨rfl, hf, hrest, by simp, fun _ => by simp [State.regAfterReads], by simp⟩

/-- R143, R163, R164: one request more. -/
theorem State.ReadsTo.succ {s t : State} {m : Nat} (h : s.ReadsTo m t) : s.ReadsTo (m + 1) (t.envRaise .rr).serve := by
  obtain ⟨hpend, hq⟩ := t.cond_eq_zero_iff.1 h.rest
  rw [State.serve_readReq (s := t.envRaise .rr) h.fsm rfl]
  constructor
  case reg =>
    intro a
    rw [State.reg_txPush, State.reg_request, State.regAfterReads_succ, ← h.config, ← h.cursor, ← h.reg]
    rfl
  all_goals rw [State.readReq_eq]
  case config => exact h.config
  case fsm => exact h.fsm
  case rest => exact (State.cond_eq_zero_iff _).2 ⟨by simp [hpend, Pending.add], hq⟩
  case cursor => simp [h.cursor, BitVec.ofNat_add, BitVec.add_assoc]
  case txlog => simp [h.txlog, h.cursor, h.reg, List.range_succ]

/-- R31, R143: from rest in READ, a schedule of requests with an engine turn after each answers them all. -/
theorem State.ReadsTo.run {s t : State} {k : Nat} (h : s.ReadsTo k t) (hrun : t.halted = false)
    (henabled : t.enabled = true) (m : Nat) :
    ∃ u, Sys2Proof.core.run (2 * m)
        { t with schedule := (List.replicate m [Turn.raise .rr, Turn.engine]).flatten } = .next u ∧
      s.ReadsTo (k + m) u := by
  induction m generalizing k t with
  | zero => exact ⟨_, rfl, h.config, h.fsm, h.rest, h.cursor, h.reg, h.txlog⟩
  | succ m ih =>
    have hserving : t.Serving := ⟨hrun, henabled, fun _ => State.calm_of_rest h.rest⟩
    have hadmits : t.admits (.raise .rr) := ⟨State.has_eq_false_of_rest h.rest .rr, fun _ => h.rest⟩
    have hraised := hserving.act hadmits
    have hserved := hraised.serve
    obtain ⟨u, hu, hread⟩ := ih h.succ hserved.running hserved.enabled
    refine ⟨u, ?_, by rwa [Nat.add_right_comm] at hread⟩
    rw [← hu, Nat.mul_succ, List.replicate_succ, List.flatten_cons]
    exact (run_succ (hserving.step_cons hadmits _) _).trans (run_succ (hraised.step_cons (m := .engine) trivial _) _)

/-- Settles O44: the run by `State.ReadsTo.run`; the bytes are those of `State.ReadsTo`. -/
theorem requestsReadRisingAddresses : Obligations.RequestsReadRisingAddresses := by
  intro m s hrun henabled hf hq hpend hs
  have hstart := State.ReadsTo.zero hf (s.cond_eq_zero_iff.2 ⟨hpend, hq⟩)
  obtain ⟨t, ht, hread⟩ := hstart.run hrun henabled m
  rw [← hs] at ht
  rw [Nat.zero_add] at hread
  exact ⟨t, ht, hread.cursor, hread.fsm, hread.txlog⟩

end Sys2Proof.Machine

/-! # Proofs: the local port, operation by operation -/

namespace Sys2Proof.Machine

/-! ## Enabling and disabling the engine (R181, R182) -/

/-- Settles O21: INIT tests `enabled` and nothing else. -/
theorem initEnablesAndEmptiesTheFrontEnd : Obligations.InitEnablesAndEmptiesTheFrontEnd :=
  fun _ _ => ⟨fun hdisabled => if_neg (Bool.eq_false_iff.1 hdisabled), fun henabled => if_pos henabled⟩

/-- Settles O22: DEINIT tests `enabled` first, then the state. -/
theorem deinitDisablesOnlyAnIdleEngine : Obligations.DeinitDisablesOnlyAnIdleEngine := by
  intro s
  refine ⟨fun henabled hidle => ?_, fun henabled hbusy => ?_, fun hdisabled => ?_⟩
  · simp [exec, execDeinit, henabled, hidle]
  · simp [exec, execDeinit, henabled, hbusy]
  · simp [exec, execDeinit, hdisabled]

/-! ## The operations that only return a value (R183, R185, R187, R193) -/

/-- R108: an equality test, as the read-data path carries it. -/
theorem boolByte_beq {α : Type} [DecidableEq α] (x y : α) :
    boolByte (x == y) = if x = y then 0x01#8 else 0x00#8 := by
  simp [boolByte]

/-- R108: an inequality test, as the read-data path carries it. -/
theorem boolByte_bne {α : Type} [DecidableEq α] (x y : α) :
    boolByte (x != y) = if x = y then 0x00#8 else 0x01#8 := by
  by_cases h : x = y <;> simp [boolByte, h]

/-- R183: what TIP returns, and that it writes nothing. -/
theorem exec_tip (s : State) :
    exec .tip s = .next { s with readData := some (if s.fsm = .idle then 0x00#8 else 0x01#8) } := by
  rw [exec, execTip, State.tip, boolByte_bne]
  rfl

/-- R193: what GET_RESET_ALLOWED returns, and that it writes nothing. -/
theorem exec_getResetAllowed (s : State) :
    exec .getResetAllowed s =
      .next { s with readData := some (if s.reg s.config.map.resetLock = 0x00#8 then 0x01#8 else 0x00#8) } := by
  rw [exec, execGetResetAllowed, boolByte_beq]
  rfl

/-- Settles O23: TIP and GET_RESET_ALLOWED by their equations; `LP_READ` and `LP_MODTEST` are their pseudocode. -/
theorem localReadsHaveNoSideEffect : Obligations.LocalReadsHaveNoSideEffect :=
  fun s _ => ⟨exec_tip s, rfl, rfl, exec_getResetAllowed s⟩

/-- R108: TIP's word is known by its `op` field alone. -/
theorem decodeLocal_tip (x : BitVec 16) : decodeLocal (2#4 ++ x) = .ok .tip := by
  have hop : localOpField (2#4 ++ x) = 2#4 := BitVec.extractLsb'_append_eq_left
  simp [decodeLocal, hop]

/-- Settles O60: `exec_tip` in both cases; while not enabled, the state is IDLE by the invariant. -/
theorem tipReportsATransactionInProgress : Obligations.TipReportsATransactionInProgress := by
  have hidle : ∀ s : State, s.fsm = .idle → exec .tip s = .next { s with readData := some 0x00#8 } :=
    fun s h => by rw [exec_tip, if_pos h]
  refine ⟨decodeLocal_tip, fun s hbusy => ?_, hidle, fun s hinv hdisabled => hidle s (hinv.disabledIdle hdisabled)⟩
  rw [exec_tip, if_neg hbusy]

/-! ## The operations that write registers and dirty bits (R184, R186, R188, R191, R192) -/

/-- R76: whether the byte at an address is written may be asked of the table at that address. -/
theorem State.writes_at_iff (s : State) (a b : Addr) : (b = a ∧ s.ro a = false) ↔ (b = a ∧ s.ro b = false) :=
  and_congr_right fun hb => by rw [hb]

/-- Settles O24: the fields by `State.busWrite_eq`, the register and the dirty bit by the bus write's laws. -/
theorem regwrFollowsTheBusWriteRules : Obligations.RegwrFollowsTheBusWriteRules := by
  intro s a v
  refine ⟨(s.busWrite a v).setReadData none, rfl, ?_, fun b => ?_, fun b => ?_⟩
  · conv_lhs => rw [State.busWrite_eq]
    rfl
  · exact (s.reg_busWrite a v b).trans (if_congr (s.writes_at_iff a b) rfl rfl)
  · exact (s.dirty_busWrite a v b).trans (if_congr (s.writes_at_iff a b) rfl rfl)

/-- R14, R77: an operation that is a raw store writes its byte and nothing else of the block. -/
theorem exec_rawStore {i : Instr} {s : State} {a : Addr} {v : Byte} (h : exec i s = .next (s.lpStore a v)) :
    ∃ t, exec i s = .next t ∧ t = { s with registers := t.registers, readData := none } ∧
      ∀ b, t.reg b = if b = a then v else s.reg b :=
  ⟨s.lpStore a v, h, rfl, s.reg_setReg a v⟩

/-- Settles O25: all three are `LP_STORE`, the accessors at their own addresses. -/
theorem localStoresAreRaw : Obligations.LocalStoresAreRaw :=
  fun _ _ _ => ⟨exec_rawStore rfl, exec_rawStore rfl, exec_rawStore rfl⟩

/-- Settles O26: the dirty bits by `State.dirty_clearDirty`. -/
theorem modclrClearsOneDirtyBit : Obligations.ModclrClearsOneDirtyBit :=
  fun s a => ⟨s.lpModclr a, rfl, rfl, s.dirty_clearDirty a⟩

/-! ## The interrupt line (R189, R190) -/

/-- Settles O27: ARB_SET_TARGET is its pseudocode, and each arm of ARB_RESOLVE is read off `State.arbResolve_eq`. -/
theorem arbitrationDrivesTheLineOnlyAtResolve : Obligations.ArbitrationDrivesTheLineOnlyAtResolve := by
  intro s
  refine ⟨rfl, fun hclear => ?_, fun hclear hdiffers => ?_, fun hclear hsame => ?_⟩ <;>
    rw [exec, execArbResolve, State.arbResolve_eq]
  · simp [hclear]
  · simp [hclear, hdiffers]
  · simp [hclear, hsame]

end Sys2Proof.Machine

/-! # Proofs: the Dispatcher's pass -/

namespace Sys2Proof.Config

/-! ## The register map in a configuration that meets R12 (R21) -/

/-- R12 (c), R21: where each register that a pass handles or writes lies above the first one; the blocks behind the
unique ID move with its length. -/
structure Placed (c : Config) : Prop where
  gpioDir : c.map.gpioDir.toNat = c.map.fwVer.toNat + 0x01
  gpioIn : c.map.gpioIn.toNat = c.map.fwVer.toNat + 0x02
  gpioOut : c.map.gpioOut.toNat = c.map.fwVer.toNat + 0x03
  lcdBacklight : c.map.lcdBacklight.toNat = c.map.fwVer.toNat + 0x04
  fpga : c.map.fpga.toNat = c.map.fwVer.toNat + 0x05
  input1 : c.map.input1.toNat = c.map.fwVer.toNat + 0x06
  input2 : c.map.input2.toNat = c.map.fwVer.toNat + 0x07
  interrupt1 : c.map.interrupt1.toNat = c.map.fwVer.toNat + 0x08
  interrupt2 : c.map.interrupt2.toNat = c.map.fwVer.toNat + 0x09
  adcTrigger : c.map.adcTrigger.toNat = c.map.fwVer.toNat + 0x0A
  adcVusb : c.map.adcVusb.toNat = c.map.fwVer.toNat + 0x0B
  adcVbat : c.map.adcVbat.toNat = c.map.fwVer.toNat + 0x0D
  adcTemp : c.map.adcTemp.toNat = c.map.fwVer.toNat + 0x0F
  usb : c.map.usb.toNat = c.map.fwVer.toNat + 0x11
  webusbMode : c.map.webusbMode.toNat = c.map.fwVer.toNat + 0x12
  blTrigger : c.map.blTrigger.toNat = c.map.fwVer.toNat + 0x13
  chargingState : c.map.chargingState.toNat = c.map.fwVer.toNat + c.uid.length + 0x54
  irTrigger : c.map.irTrigger.toNat = c.map.fwVer.toNat + c.uid.length + 0x5A
  ledMode : c.map.ledMode.toNat = c.map.fwVer.toNat + c.uid.length + 0x5B
  ledLength : c.map.ledLength.toNat = c.map.fwVer.toNat + c.uid.length + 0x5C

theorem placed_of_wf {c : Config} (h : c.wf = true) : c.Placed := by
  simp only [wf, layout, contiguous, scratchLen, Bool.and_eq_true, beq_iff_eq] at h
  constructor <;> omega

namespace Placed

variable {c : Config}

/-- R12 (c): the status mirror writes two registers. -/
theorem usb_ne_webusbMode (h : c.Placed) : c.map.usb ≠ c.map.webusbMode := by
  rw [← BitVec.toNat_ne_iff_ne, h.usb, h.webusbMode]
  omega

/-- R12 (c): the input poll writes five registers. -/
theorem inputs_nodup (h : c.Placed) :
    [c.map.interrupt1, c.map.interrupt2, c.map.input1, c.map.input2, c.map.gpioIn].Nodup := by
  apply List.Nodup.of_map BitVec.toNat
  simp only [List.map_cons, List.map_nil, h.interrupt1, h.interrupt2, h.input1, h.input2, h.gpioIn]
  simp

/-- R12 (c), R41: each ADC pair lies below the charging register. -/
theorem adcPair_lt (h : c.Placed) (channel : Fin 3) :
    (Machine.adcPair c channel).toNat + 1 < c.map.chargingState.toNat := by
  have hcharging := h.chargingState
  unfold Machine.adcPair
  split_ifs
  · have hpair := h.adcVusb; omega
  · have hpair := h.adcVbat; omega
  · have hpair := h.adcTemp; omega

end Placed

end Sys2Proof.Config

namespace Sys2Proof.Machine

/-! ## One micro-step, and a pass as a run of micro-steps (R210, R217) -/

theorem State.passStep_of_point {s : State} {d : Draws} {p : PassPoint} (hp : s.passInProgress = some ⟨d, p⟩) :
    s.passStep = s.passStepAt d p := by
  rw [State.passStep, hp]

theorem State.passRun_succ {s : State} {n : Nat} {d : Draws} {p : PassPoint} (hrun : s.halted = false)
    (hp : s.passInProgress = some ⟨d, p⟩) :
    State.passRun (n + 1) s = State.passRun n (s.passStepAt d p) := by
  simp [State.passRun, hrun, hp, State.passStep_of_point hp]

/-- Settles O11: while a pass is in progress, neither turn is taken from the schedule. -/
theorem localOperationsWaitForThePassInProgress : Obligations.LocalOperationsWaitForThePassInProgress := by
  rintro s p rest hrun hp (⟨w, hs⟩ | ⟨d, hs⟩)
  · rw [step_of_not_halted hrun, moveNext, hs]
    simp [hp]
  · rw [step_of_not_halted hrun, moveNext, hs]
    simp [hp]

/-! ## A micro-step as its operation (R210 to R215) -/

/-- R210: what the operation of a point leaves, with the pass and the ADC index moved on. -/
theorem State.passStepAt_eq_exec {s : State} {d : Draws} {p : PassPoint} {i : Instr} (h : passOp s d p = some i) :
    ∃ t, exec i s = .next t ∧
      s.passStepAt d p = { t with
        passInProgress := (s.passStepAt d p).passInProgress, nextChannel := (s.passStepAt d p).nextChannel } := by
  cases p <;> cases h <;> exact ⟨_, rfl, rfl⟩

/-- R215: of the points that issue an operation, only the store of the high byte advances the ADC index. -/
theorem State.passStepAt_nextChannel {s : State} {d : Draws} {p : PassPoint} {i : Instr} (h : passOp s d p = some i)
    (hp : ∀ x, p ≠ .storeAdcHigh x) : (s.passStepAt d p).nextChannel = s.nextChannel := by
  cases p
  case line => simp only [State.passStepAt, State.arbResolve_eq, State.goTo_nextChannel]
  case handler => cases h
  case storeAdcHigh x => exact absurd rfl (hp x)
  all_goals rfl

/-- Settles O50: by the operation of the point, and the index moves at the store of the high byte alone. -/
theorem passMicroStepsAreLocalOperations : Obligations.PassMicroStepsAreLocalOperations := by
  intro s d p i hp hop
  rw [State.passStep_of_point hp]
  obtain ⟨t, hexec, hstep⟩ := State.passStepAt_eq_exec hop
  refine ⟨t, hexec, hstep, fun hmoved => ?_⟩
  by_contra hnot
  exact hmoved (State.passStepAt_nextChannel hop fun x hx => hnot ⟨x, hx⟩)

/-! ## The place of a pass and the read-data return stand apart from the registers -/

namespace State

@[simp] theorem goTo_goTo (s : State) (d e : Draws) (p q : Option PassPoint) : (s.goTo d p).goTo e q = s.goTo e q := rfl

@[simp] theorem setReadData_goTo (s : State) (d : Draws) (p : Option PassPoint) (r : Option Byte) :
    (s.goTo d p).setReadData r = (s.setReadData r).goTo d p := rfl

@[simp] theorem setReg_goTo (s : State) (d : Draws) (p : Option PassPoint) (a : Addr) (v : Byte) :
    (s.goTo d p).setReg a v = (s.setReg a v).goTo d p := rfl

@[simp] theorem setReadData_setReadData (s : State) (q r : Option Byte) :
    (s.setReadData q).setReadData r = s.setReadData r := rfl

@[simp] theorem setReg_setReadData (s : State) (r : Option Byte) (a : Addr) (v : Byte) :
    (s.setReadData r).setReg a v = (s.setReg a v).setReadData r := rfl

/-- R217: the next micro-step of a pass that stands at a point. -/
theorem passRun_goTo {s : State} {n : Nat} {d : Draws} {p : PassPoint} (hrun : s.halted = false) :
    passRun (n + 1) (s.goTo d (some p)) = passRun n ((s.goTo d (some p)).passStepAt d p) :=
  passRun_succ hrun rfl

end State

/-! ## The dispatch of one address (R212) -/

/-- R212: the micro-step that tests an address goes on to the next address, or to the read. -/
theorem State.passStepAt_modTest (s : State) (d : Draws) (a : Addr) :
    s.passStepAt d (.modTest a) =
      (s.setReadData (some (boolByte (s.dirty a)))).goTo d (some (if s.dirty a then .regRead a else afterAddr a)) := rfl

/-- R230: a handler looks neither at the pass nor at the read-data return. -/
theorem State.handler_setReadData_goTo (s : State) (r : Option Byte) (d : Draws) (n : Option PassPoint) (a : Addr)
    (v : Byte) : ((s.setReadData r).goTo d n).handler a v = ((s.handler a v).setReadData r).goTo d n := by
  unfold State.handler State.irHandler State.bootloaderHandler
  simp only [apply_ite (fun t : State => (t.setReadData r).goTo d n)]
  rfl

/-- R212: where the handler returns, the clearing of the dirty bit is next. -/
theorem State.passStepAt_handler {s : State} {a : Addr} {v : Byte} (h : (s.handler a v).halted = false)
    (r : Option Byte) (d : Draws) (n : Option PassPoint) :
    ((s.setReadData r).goTo d n).passStepAt d (.handler a v) =
      ((s.handler a v).setReadData r).goTo d (some (.modClear a)) := by
  rw [State.passStepAt, State.handler_setReadData_goTo, State.goTo_goTo]
  exact if_neg (Bool.eq_false_iff.1 h)

/-- R212: the clearing micro-step looks neither at the pass nor at the read-data return. -/
theorem State.passStepAt_modClear (s : State) (r : Option Byte) (d : Draws) (n : Option PassPoint) (a : Addr) :
    ((s.setReadData r).goTo d n).passStepAt d (.modClear a) = (s.lpModclr a).goTo d (some (afterAddr a)) := rfl

/-- R212: the four micro-steps of a dirty address whose handler returns: test, read, handler, clear. -/
theorem State.passRun_dirty {s : State} {d : Draws} {a : Addr} (hrun : s.halted = false)
    (hp : s.passInProgress = some ⟨d, .modTest a⟩) (hdirty : s.dirty a = true)
    (hreturns : (s.handler a (s.reg a)).halted = false) :
    State.passRun 4 s = ((s.handler a (s.reg a)).lpModclr a).goTo d (some (afterAddr a)) := by
  calc State.passRun 4 s
    _ = State.passRun 3 ((s.setReadData (some 0x01#8)).goTo d (some (.regRead a))) := by
      rw [State.passRun_succ hrun hp, State.passStepAt_modTest, hdirty]
      rfl
    _ = State.passRun 2 ((s.setReadData (some (s.reg a))).goTo d (some (.handler a (s.reg a)))) :=
      Eq.trans (State.passRun_goTo hrun) rfl
    _ = State.passRun 1 (((s.handler a (s.reg a)).setReadData (some (s.reg a))).goTo d (some (.modClear a))) := by
      rw [← State.passStepAt_handler hreturns]
      exact State.passRun_goTo hrun
    _ = ((s.handler a (s.reg a)).lpModclr a).goTo d (some (afterAddr a)) :=
      Eq.trans (State.passRun_goTo hreturns) (State.passStepAt_modClear ..)

/-- R230: a handler that returns emits and does nothing else. -/
theorem State.handler_of_returns {s : State} {a : Addr} {v : Byte} (h : (s.handler a v).halted = s.halted) :
    s.handler a v = { s with emitted := (s.handler a v).emitted } := by
  conv_lhs => rw [State.handler_eq, h]

/-- Settles O51: the test alone by its micro-step, the dispatch by `State.passRun_dirty`; a handler that returns touches
nothing of the block, so that the registers and the ADC index stay at every address. -/
theorem dirtyAddressIsDispatchedOnce : Obligations.DirtyAddressIsDispatchedOnce := by
  intro s d a hrun hp after t
  refine ⟨fun hclean => ?_, fun hdirty hreturns => ?_⟩
  · rw [State.passStep_of_point hp, State.passStepAt_modTest, hclean]
    rfl
  · have ht : t = { s.clearDirty a with
        emitted := (s.handler a (s.reg a)).emitted, passInProgress := after, readData := none } := by
      rw [show t = _ from State.passRun_dirty hrun hp hdirty hreturns,
        State.handler_of_returns (hreturns.trans hrun.symm)]
      rfl
    rw [ht]
    refine ⟨?_, s.dirty_clearDirty a⟩
    simp only [State.clearDirty, ite_self]

/-! ## The status mirror (R213) -/

/-- R213: the two micro-steps of step 3. -/
theorem State.passRun_mirror {s : State} {d : Draws} (hrun : s.halted = false)
    (hp : s.passInProgress = some ⟨d, .mirrorUsb⟩) :
    State.passRun 2 s =
      (((s.setReg s.config.map.usb d.usb).setReg s.config.map.webusbMode d.webusbMode).setReadData none).goTo d
        (afterMirror d) := by
  rw [State.passRun_succ hrun hp]
  exact Eq.trans (State.passRun_succ hrun rfl) rfl

/-- Settles O55: the stores by `State.reg_setReg` at two addresses, the continuation by `afterMirror`. -/
theorem statusMirrorStoresTheDrawnBytes : Obligations.StatusMirrorStoresTheDrawnBytes := by
  intro s d hwf hrun hp t
  rw [show t = _ from State.passRun_mirror hrun hp]
  have hne := (Config.placed_of_wf hwf).usb_ne_webusbMode
  refine ⟨⟨rfl, fun a => ?_⟩, fun i hi => ?_, fun x hi hx => ?_, fun hi hx => ?_⟩
  · rw [State.reg_goTo, State.reg_setReadData, State.reg_setReg, State.reg_setReg]
    by_cases ha : a = s.config.map.usb <;> simp [ha, hne]
  · simp [afterMirror, hi]
  · simp [afterMirror, afterInputs, hi, hx]
  · simp [afterMirror, afterInputs, hi, hx]

/-! ## The input poll (R214) -/

/-- R214: `i <- LP_READ(a); LP_STORE(a, i | x)`. -/
def State.latch (s : State) (a : Addr) (x : Byte) : State := s.setReg a (s.reg a ||| x)

theorem State.reg_latch (s : State) (a : Addr) (x : Byte) (b : Addr) :
    (s.latch a x).reg b = if b = a then s.reg a ||| x else s.reg b := s.reg_setReg a _ b

/-- R214: the five stores of the input poll. -/
def State.latchInputs (s : State) (i : InputSample) : State :=
  let m := s.config.map
  ((((s.latch m.interrupt1 (i.new1 ^^^ s.reg m.input1)).latch m.interrupt2 (i.new2 ^^^ s.reg m.input2)).setReg
    m.input1 i.new1).setReg m.input2 i.new2).setReg m.gpioIn i.gin

theorem State.latchInputs_eq (s : State) (i : InputSample) :
    s.latchInputs i = { s with registers := (s.latchInputs i).registers } := rfl

/-- R214: in a configuration that meets R12 no store of the poll falls on another. -/
theorem State.reg_latchInputs {s : State} (h : s.config.Placed) (i : InputSample) (a : Addr) :
    (s.latchInputs i).reg a =
      if a = s.config.map.interrupt1 then s.reg s.config.map.interrupt1 ||| (i.new1 ^^^ s.reg s.config.map.input1)
      else if a = s.config.map.interrupt2 then s.reg s.config.map.interrupt2 ||| (i.new2 ^^^ s.reg s.config.map.input2)
      else if a = s.config.map.input1 then i.new1
      else if a = s.config.map.input2 then i.new2
      else if a = s.config.map.gpioIn then i.gin
      else s.reg a := by
  have hne := h.inputs_nodup
  simp only [List.nodup_cons, List.mem_cons, List.not_mem_nil, not_or] at hne
  simp only [State.latchInputs, State.reg_setReg, State.reg_latch]
  -- No address passes two of the tests, so that their order does not matter.
  split_ifs <;> simp_all

/-- R214: the nine micro-steps of step 4 before `ARB_SET_TARGET`. -/
theorem State.passRun_inputs {s : State} {d : Draws} {i : InputSample} (hrun : s.halted = false)
    (hp : s.passInProgress = some ⟨d, .readOld1 i⟩) (n : Nat) :
    State.passRun (n + 9) s = State.passRun n (((s.latchInputs i).setReadData none).goTo d
      (if (i.new1 ^^^ s.reg s.config.map.input1) ||| (i.new2 ^^^ s.reg s.config.map.input2) ≠ 0#8
        then some .setTarget else afterInputs d)) := by
  rw [State.passRun_succ hrun hp]
  simp [State.passStepAt, State.lpRead, State.lpStore, State.passRun_goTo, hrun, State.latchInputs, State.latch]

/-- R210: after step 4 the pass stands at step 5 if the ADC poll is due, else it has ended. -/
theorem afterInputs_place (d : Draws) :
    (afterInputs d).map (fun p => (⟨d, p⟩ : Pass)) = d.adc.map (fun x => ⟨d, .storeCharging x⟩) :=
  Option.map_map ..

/-- R214: the micro-steps of the whole input poll; `ARB_SET_TARGET` is its tenth where some bit differs. -/
theorem State.passRun_inputPoll {s : State} {d : Draws} {i : InputSample} (hrun : s.halted = false)
    (hp : s.passInProgress = some ⟨d, .readOld1 i⟩) {x : Byte}
    (hx : (i.new1 ^^^ s.reg s.config.map.input1) ||| (i.new2 ^^^ s.reg s.config.map.input2) = x) :
    State.passRun (if x = 0#8 then 9 else 10) s = { s with
      registers := (s.latchInputs i).registers, target := if x = 0#8 then s.target else true
      passInProgress := d.adc.map (fun x => ⟨d, .storeCharging x⟩), readData := none } := by
  rw [← afterInputs_place]
  by_cases hsame : x = 0#8
  · rw [if_pos hsame, State.passRun_inputs hrun hp 0, hx, if_neg (not_not.2 hsame), if_pos hsame, State.latchInputs_eq]
    rfl
  · rw [if_neg hsame, State.passRun_inputs hrun hp 1, hx, if_pos hsame, if_neg hsame, State.latchInputs_eq]
    exact Eq.trans (State.passRun_goTo hrun) rfl

/-- Settles O56: the micro-steps by `State.passRun_inputPoll`, the registers by `State.reg_latchInputs`. -/
theorem inputPollLatchesEveryChange : Obligations.InputPollLatchesEveryChange := by
  intro s d i hwf hrun hp d1 d2 t
  rw [show t = _ from State.passRun_inputPoll hrun hp rfl]
  exact ⟨rfl, State.reg_latchInputs (Config.placed_of_wf hwf) i⟩

/-! ## The ADC poll (R215) -/

/-- R215: the three stores of the ADC poll. -/
def State.storeSample (s : State) (x : AdcSample) : State :=
  let p := adcPair s.config s.nextChannel
  ((s.setReg s.config.map.chargingState (boolByte x.charging)).setReg p (lowByte x.sample)).setReg (p + 1#8)
    (highByte x.sample)

/-- R215: the micro-steps of the ADC poll. -/
theorem State.passRun_adcPoll {s : State} {d : Draws} {x : AdcSample} (hrun : s.halted = false)
    (hp : s.passInProgress = some ⟨d, .storeCharging x⟩) :
    State.passRun 3 s = ({ (s.storeSample x).setReadData none with
      nextChannel := nextAdcChannel s.nextChannel } : State).goTo d none := by
  rw [State.passRun_succ hrun hp]
  simp only [State.passStepAt, State.lpStore, State.setReg_goTo, State.setReg_setReadData, State.setReadData_goTo,
    State.setReadData_setReadData, State.goTo_goTo, State.passRun_goTo, State.setReadData_halted, State.setReg_halted,
    hrun]
  rfl

/-- R89 (d). -/
theorem nextAdcChannel_val : ∀ c : Fin 3, (nextAdcChannel c).val = (c.val + 1) % 3 := by decide

/-- R72, R109 (d): the two halves of a sample, high byte first. -/
theorem highByte_append_lowByte (v : BitVec 16) : highByte v ++ lowByte v = v :=
  BitVec.extractLsb'_append_extractLsb'

/-- R215: the registers after the three stores, the last one first. -/
theorem State.reg_storeSample (s : State) (x : AdcSample) (a : Addr) :
    (s.storeSample x).reg a =
      if a = adcPair s.config s.nextChannel + 1#8 then highByte x.sample
      else if a = adcPair s.config s.nextChannel then lowByte x.sample
      else if a = s.config.map.chargingState then boolByte x.charging
      else s.reg a := by
  simp only [State.storeSample, State.reg_setReg]

/-- Settles O57: the micro-steps by `State.passRun_adcPoll`; the pair lies below the charging register, so that the
stores fall on three addresses. -/
theorem adcPollSamplesOneChannel : Obligations.AdcPollSamplesOneChannel := by
  intro s d x hwf hrun hpass p t
  rw [show t = _ from State.passRun_adcPoll hrun hpass]
  have hbelow : p.toNat + 1 < s.config.map.chargingState.toNat := (Config.placed_of_wf hwf).adcPair_lt s.nextChannel
  have hhigh : s.config.map.chargingState ≠ p + 1#8 := by bv_omega
  have hlow : s.config.map.chargingState ≠ p := by bv_omega
  have hpair : p ≠ p + 1#8 := by bv_omega
  have hreg := s.reg_storeSample x
  rw [show adcPair s.config s.nextChannel = p from rfl] at hreg
  refine ⟨rfl, nextAdcChannel_val _, ?_, ?_, fun a ha hb hc => ?_⟩
  · calc (s.storeSample x).reg (p + 1#8) ++ (s.storeSample x).reg p
        = highByte x.sample ++ lowByte x.sample := by rw [hreg, hreg, if_pos rfl, if_neg hpair, if_pos rfl]
      _ = x.sample := highByte_append_lowByte x.sample
  · exact (hreg _).trans (by rw [if_neg hhigh, if_neg hlow, if_pos rfl]; rfl)
  · exact (hreg a).trans (by rw [if_neg hb, if_neg ha, if_neg hc])

/-! ## The end of a pass (R210, R216) -/

/-- R210 to R215: the most micro-steps a pass still has at a point: four for each address left, two for the mirror, ten
for the input poll, three for the ADC poll. -/
def PassPoint.microStepsLeft : PassPoint → Nat
  | .line => 1040
  | .modTest a => 4 * (255 - a.toNat) + 19
  | .regRead a => 4 * (255 - a.toNat) + 18
  | .handler a _ => 4 * (255 - a.toNat) + 17
  | .modClear a => 4 * (255 - a.toNat) + 16
  | .mirrorUsb => 15
  | .mirrorWebusb => 14
  | .readOld1 _ => 13
  | .readOld2 _ _ => 12
  | .readInt1 _ _ _ => 11
  | .storeInt1 _ _ _ _ => 10
  | .readInt2 _ _ _ => 9
  | .storeInt2 _ _ _ _ => 8
  | .storeInput1 _ _ _ => 7
  | .storeInput2 _ _ _ => 6
  | .storeGpioIn _ _ _ => 5
  | .setTarget => 4
  | .storeCharging _ => 3
  | .storeAdcLow _ => 2
  | .storeAdcHigh _ => 1

theorem PassPoint.microStepsLeft_pos (p : PassPoint) : 0 < p.microStepsLeft := by
  cases p <;> exact Nat.succ_pos _

/-- R212: what is left from where an address leads to. -/
theorem microStepsLeft_afterAddr (a : Addr) : (afterAddr a).microStepsLeft ≤ 4 * (255 - a.toNat) + 15 := by
  unfold afterAddr
  split
  case isTrue => exact Nat.le_add_left ..
  case isFalse h =>
    have hnext : (a + 1#8).toNat = a.toNat + 1 := by bv_omega
    have hlt : a.toNat < 255 := by bv_omega
    simp only [PassPoint.microStepsLeft, hnext]
    omega

namespace State

/-- The most micro-steps the pass in progress still has, none between passes. -/
def microStepsLeft (s : State) : Nat := s.passInProgress.elim 0 (fun p => p.point.microStepsLeft)

theorem passInProgress_of_microStepsLeft {s : State} (h : s.microStepsLeft = 0) : s.passInProgress = none := by
  cases hp : s.passInProgress with
  | none => rfl
  | some p =>
    rw [microStepsLeft, hp] at h
    exact absurd h (Nat.ne_of_gt p.point.microStepsLeft_pos)

theorem microStepsLeft_goTo (s : State) (d : Draws) (p : PassPoint) :
    (s.goTo d (some p)).microStepsLeft = p.microStepsLeft := rfl

theorem microStepsLeft_goTo_none (s : State) (d : Draws) : (s.goTo d none).microStepsLeft = 0 := rfl

/-- R210: step 5 has three micro-steps, if it is due. -/
theorem microStepsLeft_goTo_afterInputs (s : State) (d : Draws) : (s.goTo d (afterInputs d)).microStepsLeft ≤ 3 := by
  unfold afterInputs
  cases d.adc with
  | none => exact Nat.zero_le 3
  | some x => exact Nat.le_refl 3

/-- R210: steps 4 and 5 have thirteen, if both are due. -/
theorem microStepsLeft_goTo_afterMirror (s : State) (d : Draws) : (s.goTo d (afterMirror d)).microStepsLeft ≤ 13 := by
  unfold afterMirror
  split
  · exact Nat.le_refl 13
  · exact (s.microStepsLeft_goTo_afterInputs d).trans (by decide)

/-- R210: a micro-step ends the run, or leaves fewer micro-steps. -/
theorem microStepsLeft_passStepAt (s : State) (d : Draws) (p : PassPoint) :
    (s.passStepAt d p).halted = true ∨ (s.passStepAt d p).microStepsLeft < p.microStepsLeft := by
  cases p <;> simp only [passStepAt]
  case handler a v =>
    split
    case isTrue h => exact .inl h
    case isFalse => exact .inr (Nat.lt_succ_self _)
  case modTest a =>
    right
    split
    · exact Nat.lt_succ_self _
    · exact Nat.lt_succ_of_le ((microStepsLeft_afterAddr a).trans (Nat.le_add_right _ 3))
  case modClear a => exact .inr (Nat.lt_succ_of_le (microStepsLeft_afterAddr a))
  case mirrorWebusb => exact .inr (Nat.lt_succ_of_le (microStepsLeft_goTo_afterMirror _ d))
  case setTarget => exact .inr (Nat.lt_succ_of_le (microStepsLeft_goTo_afterInputs _ d))
  case storeGpioIn i d1 d2 =>
    right
    split
    · exact Nat.lt_succ_self _
    · exact Nat.lt_succ_of_le ((microStepsLeft_goTo_afterInputs _ d).trans (Nat.le_succ 3))
  all_goals exact .inr (by simp [microStepsLeft_goTo, microStepsLeft_goTo_none, PassPoint.microStepsLeft])

/-- R56: after the end of the run no micro-step is taken. -/
theorem passRun_of_halted {s : State} (h : s.halted = true) (n : Nat) : passRun n s = s := by
  cases n with
  | zero => rfl
  | succ n => simp [passRun, h]

/-- R210: enough micro-steps take a pass to its end, or the run to its. -/
theorem passRun_ends {n : Nat} {s : State} (h : s.microStepsLeft ≤ n) :
    (passRun n s).passInProgress = none ∨ (passRun n s).halted = true := by
  induction n generalizing s with
  | zero => exact .inl (passInProgress_of_microStepsLeft (Nat.le_zero.1 h))
  | succ n ih =>
    cases hrun : s.halted with
    | true => rw [passRun_of_halted hrun]; exact .inr hrun
    | false =>
      cases hp : s.passInProgress with
      | none => rw [passRun_of_no_pass hp]; exact .inl hp
      | some p =>
        rw [passRun_succ hrun hp]
        rcases s.microStepsLeft_passStepAt p.draws p.point with hhalted | hless
        · rw [passRun_of_halted hhalted]; exact .inr hhalted
        · rw [microStepsLeft, hp] at h
          exact ih (Nat.le_of_lt_succ (hless.trans_le h))

/-- R210: behind the gate a pass has at most as many micro-steps as the bound. -/
theorem microStepsLeft_passBegin {s : State} (hp : s.passInProgress = none) (d : Draws) :
    (s.passBegin d).microStepsLeft ≤ passBound := by
  unfold passBegin
  split
  · rw [microStepsLeft, show s.tip.passInProgress = none from hp]; exact Nat.zero_le _
  · exact Nat.le_refl _

/-- R210: the gate test by its two outcomes. -/
theorem passBegin_eq_gated (s : State) (d : Draws) :
    s.passBegin d = if s.fsm = .idle then { s with readData := some 0x00#8, passInProgress := some ⟨d, .line⟩ }
      else { s with readData := some 0x01#8 } := by
  unfold passBegin
  cases hfsm : s.fsm <;> simp [tip, setReadData, goTo, boolByte, hfsm]

end State

/-- Settles O58: the step is the gate test and `passRun`, which `State.passRun_iterate` reads as micro-steps one by one,
and the bound reaches its end by `State.passRun_ends`. -/
theorem atomicPassEndsInOneStep : Obligations.AtomicPassEndsInOneStep := by
  intro s d rest hrun hatom hp hs gated
  have hgated : ({ s with schedule := rest } : State).passBegin d = gated := State.passBegin_eq_gated _ d
  have hleft : gated.microStepsLeft ≤ passBound :=
    hgated ▸ State.microStepsLeft_passBegin (s := { s with schedule := rest }) hp d
  have hstep : step s = .next (State.passRun passBound gated) := by
    rw [step_of_schedule_pass hrun hs hp, State.passTurn, ← hgated]
    simp only [hatom]
  obtain ⟨k, hk, hiterate, hbefore⟩ := State.passRun_iterate passBound gated
  rw [hiterate] at hstep
  exact ⟨k, hk, hstep, hiterate ▸ State.passRun_ends hleft, fun j hj => (hbefore j hj).symm⟩

end Sys2Proof.Machine

/-! # Proofs: the side-effect handlers -/

namespace Sys2Proof.Config

/-- R12 (c), R230: no two handlers stand at one address. -/
theorem Placed.handledAddrs_nodup {c : Config} (h : c.Placed) : (Machine.handledAddrs c).Nodup := by
  apply List.Nodup.of_map BitVec.toNat
  simp only [Machine.handledAddrs, List.map_cons, List.map_nil, h.gpioDir, h.gpioOut, h.fpga, h.lcdBacklight,
    h.adcTrigger, h.irTrigger, h.blTrigger, h.ledMode, h.ledLength, List.nodup_cons, List.mem_cons, List.not_mem_nil,
    List.nodup_nil, or_false, not_false_eq_true, and_true]
  omega

end Sys2Proof.Config

namespace Sys2Proof.Machine

/-! ## R230's table, one entry for each handled address -/

/-- In a list of pairs with distinct keys, the lookup of a key finds its own pair. -/
theorem lookup_of_mem_of_nodup {α β : Type} [BEq α] [LawfulBEq α] {l : List (α × β)} {a : α} {b : β}
    (hkeys : (l.map Prod.fst).Nodup) (h : (a, b) ∈ l) : l.lookup a = some b := by
  induction l with
  | nil => cases h
  | cons p l ih =>
    obtain ⟨hp, hl⟩ := List.nodup_cons.1 hkeys
    rcases List.mem_cons.1 h with rfl | hmem
    · simp
    · have hne : a ≠ p.1 := fun e => hp (e ▸ List.mem_map_of_mem hmem)
      rw [List.lookup_cons, beq_false_of_ne hne]
      exact ih hl hmem

/-- A lookup with a default, in a list that is not empty: the first pair's value, or the lookup in the rest. -/
theorem lookup_cons_getD {α β : Type} [DecidableEq α] (a b : α) (t s : β) (l : List (α × β)) :
    (((b, t) :: l).lookup a).getD s = if a = b then t else (l.lookup a).getD s := by
  by_cases h : a = b
  · simp [h]
  · rw [List.lookup_cons, beq_false_of_ne h, if_neg h]

namespace State

/-- R230's table: each handled address, in the order of `handledAddrs`, with what its handler makes of the state. -/
def handlerTable (s : State) (v : Byte) : List (Addr × State) :=
  [(s.config.map.gpioDir, s.emit (gpioDirOutputs v)),
   (s.config.map.gpioOut, s.emit (gpioOutOutputs v)),
   (s.config.map.fpga, s.emit (fpgaOutputs v)),
   (s.config.map.lcdBacklight, s.emit [.setLcdBacklight v]),
   (s.config.map.adcTrigger, s.emit [.adcTrigger v]),
   (s.config.map.irTrigger, s.irHandler v),
   (s.config.map.blTrigger, s.bootloaderHandler v),
   (s.config.map.ledMode, s.emit [.ledMode v]),
   (s.config.map.ledLength, s.emit (s.ledOutputs v))]

theorem handlerTable_keys (s : State) (v : Byte) : (s.handlerTable v).map Prod.fst = handledAddrs s.config := rfl

/-- R230: a handler is the entry of its address, and the empty action where there is none. -/
theorem handler_eq_lookup (s : State) (a : Addr) (v : Byte) :
    s.handler a v = ((s.handlerTable v).lookup a).getD s := by
  simp only [handlerTable, lookup_cons_getD, List.lookup_nil, Option.getD_none]
  rfl

/-- R230: at each address of the table the handler is the table's, in a configuration that meets R12. -/
theorem handler_of_mem {s : State} (hwf : s.config.wf = true) (v : Byte) :
    ∀ p ∈ s.handlerTable v, s.handler p.1 v = p.2 := by
  intro p hp
  have hkeys := (Config.placed_of_wf hwf).handledAddrs_nodup
  rw [← s.handlerTable_keys v] at hkeys
  rw [handler_eq_lookup, lookup_of_mem_of_nodup hkeys hp, Option.getD_some]

/-- R230: at every other address it does nothing. -/
theorem handler_of_not_mem {s : State} {a : Addr} (h : a ∉ handledAddrs s.config) (v : Byte) : s.handler a v = s := by
  rw [← s.handlerTable_keys v] at h
  have hnone : (s.handlerTable v).lookup a = none :=
    List.lookup_eq_none_iff.2 fun p hp => bne_iff_ne.2 fun e => h (e ▸ List.mem_map_of_mem hp)
  rw [handler_eq_lookup, hnone, Option.getD_none]

end State

/-- Settles O52: such an address has no entry in R230's table. -/
theorem unhandledAddressesHaveNoSideEffect : Obligations.UnhandledAddressesHaveNoSideEffect :=
  fun _ _ v h => State.handler_of_not_mem h v

/-! ## The LED push (R238) -/

namespace State

/-- R238: a pixel word's four bytes, each at its own address. -/
theorem ledWord_eq (s : State) (k : Nat) :
    s.ledWord k =
      s.reg (s.config.map.ledData + BitVec.ofNat 8 (4 * k + 3)) ++
        s.reg (s.config.map.ledData + BitVec.ofNat 8 (4 * k + 2)) ++
        s.reg (s.config.map.ledData + BitVec.ofNat 8 (4 * k + 1)) ++
        s.reg (s.config.map.ledData + BitVec.ofNat 8 (4 * k)) := by
  simp only [ledWord, BitVec.ofNat_add, BitVec.add_assoc]

/-- The words that one push sends: `min(v, 10)` of them, from word 0 (R238). -/
def ledWords (s : State) (v : Byte) : List (BitVec 32) := (List.range (min v.toNat Config.ledWords)).map s.ledWord

theorem ledOutputs_eq (s : State) (v : Byte) : s.ledOutputs v = (s.ledWords v).map .ledPushWord :=
  List.map_map.symm

theorem ledWords_length (s : State) (v : Byte) : (s.ledWords v).length = min v.toNat 10 := by
  simp [ledWords, Config.ledWords]

theorem ledWords_getElem (s : State) (v : Byte) (k : Nat) (h : k < (s.ledWords v).length) :
    (s.ledWords v)[k] = s.ledWord k := by
  simp [ledWords]

end State

/-- Settles O53: each output is the entry of R230's table at its address, the LED words one by one by
`State.ledWord_eq`. -/
theorem handlersEmitTheirOutputs : Obligations.HandlersEmitTheirOutputs := by
  intro s v hwf
  have htable := State.handler_of_mem hwf v
  simp only [State.handlerTable, List.forall_mem_cons] at htable
  obtain ⟨hdir, hout, hfpga, hlcd, hadc, hir, -, hmode, hlength, -⟩ := htable
  refine ⟨hdir, hout, hfpga, hlcd, hir, congrArg State.emitted hadc, hmode,
    s.ledWords v, ?_, s.ledWords_length v, fun k h => ?_⟩
  · rw [hlength, State.ledOutputs_eq]
    rfl
  · rw [State.ledWords_getElem, State.ledWord_eq]

/-! ## The bootloader trigger (R236) -/

/-- R236: in a configuration that meets R12 the handler of the trigger is the bootloader's. -/
theorem State.handler_blTrigger {s : State} (hwf : s.config.wf = true) (v : Byte) :
    s.handler s.config.map.blTrigger v = s.bootloaderHandler v :=
  State.handler_of_mem hwf v (s.config.map.blTrigger, s.bootloaderHandler v) (by simp [State.handlerTable])

/-- Settles O54: the handler's micro-step stays where it is if the run has ended, and `step` looks at `halted` first. -/
theorem bootloaderSentinelEndsTheRun : Obligations.BootloaderSentinelEndsTheRun := by
  intro s d v hwf hrun hp
  rw [State.passStep_of_point hp, State.passStepAt, State.handler_blTrigger hwf, State.bootloaderHandler]
  refine ⟨fun hv => ?_, fun hv => ?_⟩
  · rw [if_pos (show v = Config.blSentinel from hv)]
    exact ⟨rfl, haltedMachineTakesNoStep _ rfl⟩
  · rw [if_neg (show v ≠ Config.blSentinel from hv)]
    exact if_neg (Bool.eq_false_iff.1 hrun)

end Sys2Proof.Machine

/-! # Proofs: the hazards -/

namespace Sys2Proof.Machine

/-! ## A read-request is answered (R294) -/

/-- R142, R143: a branch answers a pending read-request with one byte, or leaves it pending and supplies none. -/
theorem EngineStep.answers_or_waits {s t : State} {i : Instr} (h : EngineStep s i t) (hrr : s.pend.rr = true) :
    (t.pend.rr = false ∧ ∃ b, t.txlog = s.txlog ++ [b]) ∨ (t.pend.rr = true ∧ t.txlog = s.txlog) := by
  cases h with
  | readReq => rw [State.readReq_eq]; exact .inl ⟨rfl, s.reg s.cursor, rfl⟩
  | recover cause => rw [State.recover_eq]; exact .inl ⟨rfl, s.config.txSentinel, if_pos hrr⟩
  | writeRx _ b => rw [State.receive_eq]; exact .inr ⟨hrr, rfl⟩
  | idleStart | idleAbort | startWrite | startRead | writeStop | writeRestart | writeRdreq | readStop =>
    exact .inr ⟨hrr, rfl⟩

/-- R294: the engine alone answers a pending read-request, since its run is bounded and does not end before. -/
theorem State.engineAlone.answers {s : State} (h : s.engineAlone) (hrr : s.pend.rr = true) :
    ∃ k t, Sys2Proof.core.run k s = .next t ∧ t.pend.rr = false ∧ ∃ b, t.txlog = s.txlog ++ [b] := by
  induction hn : s.stepsLeft using Nat.strong_induction_on generalizing s with
  | _ n ih =>
    have hcond : s.cond ≠ 0#5 := State.cond_ne_zero_of_has (c := .rr) hrr
    obtain ⟨i, t, hnext, hstep, halone⟩ := h.step hcond
    rcases hstep.answers_or_waits hrr with ⟨hanswered, hbyte⟩ | ⟨hwaits, htx⟩
    · exact ⟨1, t, run_succ hnext 0, hanswered, hbyte⟩
    · obtain ⟨k, u, hrun, hanswered, hbyte⟩ := ih _ (hn ▸ hstep.stepsLeft_lt hcond) halone hwaits rfl
      exact ⟨k + 1, u, (run_succ hnext k).trans hrun, hanswered, htx ▸ hbyte⟩

/-- Settles O42: every engine step answers the request or brings the run nearer to its end. -/
theorem pendingReadIsAlwaysAnswered : Obligations.PendingReadIsAlwaysAnswered :=
  fun _ halone hrr => halone.answers hrr

/-! ## From a fault on (R285, R288) -/

/-- The run of a state's own schedule, where it is orderly. -/
theorem State.Serving.run_schedule {s : State} (h : s.Serving) (hs : Orderly s s.schedule) :
    Sys2Proof.core.run s.schedule.length s = .next { s.schedule.foldl State.act s with schedule := [] } := by
  have hrun := h.run_orderly hs s.schedule.length
  rwa [Nat.sub_self, List.take_length, List.drop_length] at hrun

namespace State

variable {s : State}

/-- R106: at rest the environment may move, under either policy. -/
theorem readyForMove_of_rest (h : s.cond = 0#5) : s.readyForMove := ⟨has_eq_false_of_rest h .rr, fun _ => h⟩

/-- D31: an empty queue has room for a byte, unless its depth is zero. -/
theorem rxHasRoom_of_rxq_nil (hq : s.rxq = []) (hdepth : ∀ d, s.config.rxDepth = some d → 0 < d) :
    s.rxHasRoom = true := by
  unfold rxHasRoom
  split
  · rfl
  · rename_i d hd
    simpa [hq] using hdepth d hd

/-- R141: an abort in WRITE. -/
theorem serve_writeAbort (hf : s.fsm = .write) (hq : s.rxq = []) (hpend : s.pend = ⟨false, false, false, true⟩) :
    s.serve = s.recover .writeAbort :=
  serve_of_firstMatch (i := .tWriteRecover) ⟨hf, hq, by rw [hpend], by rw [hpend], by rw [hpend]⟩
    (cond_ne_zero_of_has (c := .ab) (by rw [hpend]; rfl)) rfl

/-- R145: a start-detected in READ. -/
theorem serve_readRestart (hf : s.fsm = .read) (hpend : s.pend = ⟨true, false, false, false⟩) :
    s.serve = s.recover .readUnexpected :=
  serve_of_firstMatch (i := .tReadRecover) ⟨hf, by rw [hpend], by rw [hpend]⟩
    (cond_ne_zero_of_has (c := .sd) (by rw [hpend]; rfl)) rfl

/-- R133: a read-request in IDLE, from rest. -/
theorem serve_idleRequest (hf : s.fsm = .idle) (hrest : s.cond = 0#5) :
    (s.envRaise .rr).serve = (s.envRaise .rr).recover .idleUnexpected :=
  serve_of_firstMatch (s := s.envRaise .rr) (i := .tIdleRecover)
    ⟨hf, has_eq_false_of_rest hrest .sd, has_eq_false_of_rest hrest .ab⟩ (cond_ne_zero_of_has (c := .rr) rfl) rfl

/-- R131: a start in IDLE, from rest, with one engine turn after it. -/
theorem serve_envRaise_start (hf : s.fsm = .idle) (hrest : s.cond = 0#5) :
    (s.envRaise .sd).serve = s.setFsm .start := by
  rw [serve_idleStart (s := s.envRaise .sd) hf rfl, clear_envRaise (has_eq_false_of_rest hrest .sd)]

/-- R134, R137: a byte in START, from rest, with two engine turns after it. -/
theorem serve_serve_envPush (hf : s.fsm = .start) (hq : s.rxq = []) (b : Byte) :
    (s.envPush b).serve.serve = (s.setFsm .write).receive b := by
  have hqueue : ((s.envPush b).setFsm .write).rxq = [b] := by simp [hq]
  have hdrop : ((s.envPush b).setFsm .write).rxDrop = s.setFsm .write := by simp [rxDrop, envPush, setFsm, hq]
  rw [serve_startWrite (s := s.envPush b) hf (by simp), serve_writeRx rfl hqueue, hdrop]

end State

/-- A start and the first byte of a write, each followed by the engine's answer. -/
def startAndByte (b : Byte) : List Turn := [.raise .sd, .engine, .push b, .engine, .engine]

namespace State

variable {s : State}

/-- R131, R134, R137: from rest in IDLE they bring the engine to WRITE, where the byte is received. -/
theorem foldl_act_startAndByte (hf : s.fsm = .idle) (hrest : s.cond = 0#5) (b : Byte) :
    (startAndByte b).foldl act s = (s.setFsm .write).receive b := by
  obtain ⟨-, hq⟩ := s.cond_eq_zero_iff.1 hrest
  have hfold : (startAndByte b).foldl act s = (((s.envRaise .sd).serve).envPush b).serve.serve := rfl
  rw [hfold, serve_envRaise_start hf hrest]
  exact serve_serve_envPush (s := s.setFsm .start) rfl hq b

/-- Each of the two moves comes at rest. -/
theorem orderly_startAndByte (hf : s.fsm = .idle) (hrest : s.cond = 0#5)
    (hdepth : ∀ d, s.config.rxDepth = some d → 0 < d) (b : Byte) : Orderly s (startAndByte b) := by
  obtain ⟨-, hq⟩ := s.cond_eq_zero_iff.1 hrest
  have hpush : (s.envRaise .sd).serve.admits (.push b) := by
    rw [serve_envRaise_start hf hrest]
    exact ⟨readyForMove_of_rest (s := s.setFsm .start) hrest,
      rxHasRoom_of_rxq_nil (s := s.setFsm .start) hq hdepth⟩
  exact ⟨readyForMove_of_rest hrest, trivial, hpush, trivial, trivial, trivial⟩

end State

/-- Settles O46: the recovery comes to rest in IDLE and keeps `wip`, so that the write's first byte is taken as data. -/
theorem abortLeavesAStaleAddressPhase : Obligations.AbortLeavesAStaleAddressPhase := by
  intro s b hrun henabled hf hwip hq hpend hdepth hs
  have hserving : s.Serving := ⟨hrun, henabled, fun _ => by simp [State.calm, State.cond, State.rx, hpend, hq]⟩
  have hrecovered : s.serve = { s with
      fsm := .idle, pend := ⟨false, false, false, false⟩, rxq := []
      recoveries := s.recoveries ++ [.writeAbort] } := by
    rw [State.serve_writeAbort hf hq hpend, State.recover_eq]
    simp [hpend, hq]
  have hidle : s.serve.fsm = .idle := by rw [hrecovered]
  have hrest : s.serve.cond = 0#5 := by rw [hrecovered]; exact (State.cond_eq_zero_iff _).2 ⟨rfl, rfl⟩
  have horderly : Orderly s s.schedule := by
    rw [hs]
    exact ⟨trivial, State.orderly_startAndByte hidle hrest (s.serve_keeps.1.symm ▸ hdepth) b⟩
  have hend : s.schedule.foldl State.act s = (s.serve.setFsm .write).receiveData b := by
    have hstale : (s.serve.setFsm .write).writeInProgress = true := by rw [hrecovered]; exact hwip
    rw [hs, ← State.receive_of_wip hstale]
    exact State.foldl_act_startAndByte hidle hrest b
  have hsteps := hserving.run_schedule horderly
  rw [hend, hrecovered, hs] at hsteps
  refine ⟨_, hsteps, ?_, ?_, ?_, fun a => ?_⟩
  · rw [State.receiveData_eq]; rfl
  · rfl
  · rw [State.receiveData_eq]; rfl
  · exact (State.reg_receiveData _ b a).trans (if_congr (s.writes_at_cursor_iff a) rfl rfl)

/-- Settles O47: the first recovery comes to rest in IDLE, and the second one finds the read-request to answer. -/
theorem restartInsideAReadYieldsTheSentinel : Obligations.RestartInsideAReadYieldsTheSentinel := by
  intro s hrun henabled hf hq hpend hs
  have hserving : s.Serving := ⟨hrun, henabled, fun _ => by simp [State.calm, State.cond, State.rx, hpend, hq]⟩
  have hrecovered : s.serve = { s with
      fsm := .idle, pend := ⟨false, false, false, false⟩, recoveries := s.recoveries ++ [.readUnexpected] } := by
    rw [State.serve_readRestart hf hpend, State.recover_eq]
    simp [hpend, hq]
  have hidle : s.serve.fsm = .idle := by rw [hrecovered]
  have hrest : s.serve.cond = 0#5 := by rw [hrecovered]; exact (State.cond_eq_zero_iff _).2 ⟨rfl, hq⟩
  have horderly : Orderly s s.schedule := by
    rw [hs]
    exact ⟨trivial, State.readyForMove_of_rest hrest, trivial, trivial⟩
  have hend : s.schedule.foldl State.act s = (s.serve.envRaise .rr).recover .idleUnexpected := by
    rw [hs]
    exact State.serve_idleRequest hidle hrest
  have hsteps := hserving.run_schedule horderly
  rw [hend, hrecovered, hs] at hsteps
  refine hsteps.trans ?_
  rw [State.recover_eq]
  simp [Pending.add, hq]

/-! ## The lost dispatch (R284 (a)) -/

/-- A run goes on from where its first steps lead. -/
theorem run_add {s t : State} {m : Nat} (h : Sys2Proof.core.run m s = .next t) (n : Nat) :
    Sys2Proof.core.run (m + n) s = Sys2Proof.core.run n t := by
  induction m generalizing s with
  | zero => cases h; rw [Nat.zero_add]
  | succ m ih =>
    cases hstep : step s with
    | next u =>
      rw [run_succ hstep] at h
      rw [Nat.add_right_comm, run_succ hstep, ih h]
    | fault r => simp [Host.Core.run, show Sys2Proof.core.step s = .fault r from hstep] at h
    | refused r => simp [Host.Core.run, show Sys2Proof.core.step s = .refused r from hstep] at h

/-- A turn of `INJ` (R180). -/
def Turn.isLocalOp : Turn → Bool
  | .localOp _ => true
  | .raise _ => false
  | .push _ => false
  | .engine => false
  | .pass _ => false
  | .poll => false

/-- What the other turns are. -/
theorem Turn.cases_of_not_localOp {m : Turn} (h : m.isLocalOp = false) :
    (∃ c, m = .raise c) ∨ (∃ b, m = .push b) ∨ m = .engine ∨ (∃ d, m = .pass d) ∨ m = .poll := by
  cases m with
  | localOp => cases h
  | raise | push | engine | pass | poll => simp

namespace LostDispatch

/-! Vector V-H1, in three parts: the pass up to the handler, the master's write, and the clearing of the dirty bit. -/

/-- The draws of a pass with no poll due. -/
def draws : Draws := ⟨0x00#8, 0x00#8, none, none⟩

/-- The gate, the line, the tests of 0x00 to 0x04, the read of 0x04 and its handler. -/
def passToHandler : List Turn := .pass draws :: List.replicate 8 .poll

/-- The master writes 0x20 to 0x04, up to its stop. -/
def masterWrite : List Turn := startAndByte 0x04#8 ++ [.push 0x20#8, .engine]

/-- The pass clears the dirty bit of 0x04, and the master stops. -/
def clearAndStop : List Turn := [.poll, .raise .sp, .engine]

/-- The whole schedule. -/
def schedule : List Turn := passToHandler ++ masterWrite ++ clearAndStop

/-- Enabled after power-on, with 0x10 written to 0x04, the LCD backlight's register. -/
def written : State := ({ State.reset with enabled := true } : State).busWrite 0x04#8 0x10#8

/-- The handler has run on 0x10. -/
def handled : State := { written with
  emitted := [.setLcdBacklight 0x10#8], readData := some 0x10#8, passInProgress := some ⟨draws, .modClear 0x04#8⟩ }

/-- The master has overwritten what the handler ran on. -/
def overwritten : State := { handled.busWrite 0x04#8 0x20#8 with
  cursor := 0x05#8, writeInProgress := true, fsm := .write }

/-- The dirty bit of 0x20 is clear, and the pass is at the next address. -/
def lost : State := { overwritten.clearDirty 0x04#8 with
  writeInProgress := false, fsm := .idle, readData := none, passInProgress := some ⟨draws, .modTest 0x05#8⟩ }

theorem written_inv : written.Inv := by
  have hreset : State.reset.Inv := invariantHoldsAfterPowerOn Config.ref
  have hready : ({ State.reset with enabled := true } : State).Inv :=
    ⟨hreset.memory, hreset.table, hreset.clean, nofun, hreset.depth⟩
  exact hready.busWrite 0x04#8 0x10#8

theorem run_passToHandler : Sys2Proof.core.run 9 { written with schedule := schedule } =
    .next { handled with schedule := masterWrite ++ clearAndStop } := rfl

theorem run_masterWrite : Sys2Proof.core.run 7 { handled with schedule := masterWrite ++ clearAndStop } =
    .next { overwritten with schedule := clearAndStop } := rfl

theorem run_clearAndStop : Sys2Proof.core.run 3 { overwritten with schedule := clearAndStop } =
    .next { lost with schedule := [] } := rfl

/-- The dirty bit stands for the master's value. -/
theorem run_overwritten : Sys2Proof.core.run 16 { written with schedule := schedule } =
    .next { overwritten with schedule := clearAndStop } := (run_add run_passToHandler 7).trans run_masterWrite

theorem run_lost : Sys2Proof.core.run 19 { written with schedule := schedule } = .next { lost with schedule := [] } :=
  (run_add run_overwritten 3).trans run_clearAndStop

theorem schedule_no_localOp : ∀ m ∈ schedule, m.isLocalOp = false := by decide

end LostDispatch

/-- Settles O48: V-H1, whose pass clears the dirty bit of what the master wrote after the handler had run. -/
theorem lostDispatchRunExists : Obligations.LostDispatchRunExists :=
  ⟨_, _, _, 16, 19, LostDispatch.written_inv.of_schedule LostDispatch.schedule, rfl, rfl, rfl, rfl, rfl,
    fun m hm => Turn.cases_of_not_localOp (LostDispatch.schedule_no_localOp m hm), by decide,
    LostDispatch.run_overwritten, rfl, rfl, rfl, LostDispatch.run_lost, rfl, rfl, rfl, rfl⟩

end Sys2Proof.Machine

/-! # Proofs: the selection under priority and the environment's moves -/

namespace Sys2Proof.Machine

/-! ## Selection under `priority` (R105, step 2, D7) -/

/-- R105 under `priority` has no step 1: the first row to match is selected. -/
theorem selects_iff_of_priority {s : State} (hp : s.config.condPolicy = .priority) (i : Instr) :
    decodeBranch s.config.condPolicy s.selector = .ok i ↔ s.firstMatch i := by
  rw [hp, State.selector_eq, decodeBranch_priority, Except.ok.injEq, s.branch_eq_iff]

/-- Settles O4: each "selected when" is the branch's `State.firstMatch`. -/
theorem prioritySelectsTheFirstHandledCondition : Obligations.PrioritySelectsTheFirstHandledCondition := by
  intro s hp _ sel
  have hsel : ∀ i, sel i ↔ s.firstMatch i := selects_iff_of_priority hp
  exact ⟨hsel _, hsel _, hsel _, hsel _, hsel _, hsel _, hsel _, hsel _, hsel _, hsel _, hsel _, hsel _, hsel _, hsel _⟩

/-! ## The environment's moves (R31, D26, D31) -/

/-- R31: adding a condition, bit by bit. -/
theorem Pending.add_eq (p : Pending) (c : Latched) :
    p.add c = ⟨p.sd || c == .sd, p.rr || c == .rr, p.sp || c == .sp, p.ab || c == .ab⟩ := by
  cases c <;> simp [Pending.add]

/-- D31, V7: a queue of finite depth has room below its depth, and one of unlimited depth always. -/
theorem State.rxHasRoom_iff (s : State) :
    s.rxHasRoom = true ↔ ∀ d, s.config.rxDepth = some d → s.rxq.length < d := by
  unfold State.rxHasRoom
  cases s.config.rxDepth <;> simp

theorem step_of_schedule_raise {s : State} {c : Latched} {rest : List Turn} (h : s.halted = false)
    (hs : s.schedule = .raise c :: rest) : step s = .next (({ s with schedule := rest } : State).envRaise c) := by
  rw [step_of_not_halted h, moveNext, hs]

theorem step_of_schedule_push {s : State} {b : Byte} {rest : List Turn} (h : s.halted = false)
    (hs : s.schedule = .push b :: rest) : step s = pushTurn b { s with schedule := rest } := by
  rw [step_of_not_halted h, moveNext, hs]

theorem pushTurn_of_room {s : State} (h : s.rxHasRoom = true) (b : Byte) : pushTurn b s = .next (s.envPush b) :=
  if_pos h

theorem pushTurn_of_full {s : State} (h : s.rxHasRoom ≠ true) (b : Byte) : pushTurn b s = .refused .rxQueueFull :=
  if_neg h

/-- Settles O10: a raise is `EnvRaise`; a push is `EnvPush` where the queue has room, and is refused where it has none. -/
theorem environmentMovesFillTheFrontEnd : Obligations.EnvironmentMovesFillTheFrontEnd := by
  intro s rest hrun
  have hroom := State.rxHasRoom_iff { s with schedule := rest }
  refine ⟨fun c hs => ?_, fun b hs hbelow => ?_, fun b d hs hdepth hfull => ?_⟩
  · rw [step_of_schedule_raise hrun hs, State.envRaise, Pending.add_eq]
  · rw [step_of_schedule_push hrun hs]
    exact pushTurn_of_room (hroom.2 hbelow) b
  · rw [step_of_schedule_push hrun hs]
    exact pushTurn_of_full (fun h => absurd (hroom.1 h d hdepth) (Nat.not_lt.2 hfull)) b

end Sys2Proof.Machine
